-- ==== Sys2Proof/Word.lean ====
section
/-! DEFINITION. The plain types of the block: bytes, words, headers, time, and the opaque pass-through values.

The block has no machine word of its own (rule R21); what the spec treats as bits is a bit vector here, and nothing else
is. `Time` and `Duration`, the types of `now`, `lastLiveAt` and `timeoutPeriod`, are mathematical integers, zero and negative
values allowed (rules R7, R26, R164, decision D6): the model writes `Int` for both. `TIME_UNIT` and `TS_WIDTH` stay open
(rule R8): nothing depends on a unit and no width is imposed (log entry 6). -/

namespace Sys2Proof

/-- A byte of a stream, bit 7 the most significant (rule R9). -/
abbrev Byte := BitVec 8

/-- `Bytes`: a finite sequence of bytes, stream order left to right (rule R10). -/
abbrev Bytes := List Byte

/-- One payload value: an opaque 32-bit word, every pattern legal (rule R30, decision D12). -/
abbrev Word := BitVec 32

/-- The 16-bit unsigned header of a frame, no reserved values (rules R29, R83). -/
abbrev Header := BitVec 16

/-- The 4-bit operation selector (rules R7, R91, decision D3). -/
abbrev Selector := BitVec 4

/-- `PORT_ID` (rules R8, R27, decision D17) is an uninterpreted type; the model stands a natural number for each port
identifier and nothing computes with it (DESIGN CHOICE, log entry 5). -/
abbrev PortId := Nat

/-- `BAUD` (rules R8, R27, decision D17): uninterpreted, as `PortId` (DESIGN CHOICE, log entry 5). -/
abbrev BaudRate := Nat

/-- A non-negative number of milliseconds, the unit of the read timeout (rule R27). -/
abbrev Millis := Nat

end Sys2Proof
end

