-- ==== Sys2Proof/Config.lean ====
section
/-! DEFINITION. The constants of the block (rules R6, R7) and the values the spec leaves to the environment.

The four `opaque` constants have no body: no proof can learn a value of them, so whatever is proved of the machine holds for
every choice (rule R12, `draw x in S`; `93_implementation_defined.md` U5 and U10). -/

namespace Sys2Proof.Config

/-- `MAX_FLOATS`, the largest legal payload length (rule R6). -/
def maxFloats : Nat := 10

/-- `PREFIX_BYTES`, the size of the first read of a decode (rule R6). -/
def prefixLength : Nat := 3

/-- `FRAME_BYTES(n)`, the byte length of a frame with `n` payload values (rules R6, R82). -/
def frameLength (n : Nat) : Nat := 4 + 4 * n

/-- The size of the second read of a decode, payload and checksum (rules R62, R82). -/
def bodyLength (n : Nat) : Nat := 4 * n + 1

/-- What the Transport has buffered when the block comes out of reset: any byte sequence (rules R37, R210, U5; log entry 2). -/
opaque resetRx : Bytes

/-- The Transport's answer to the `k`-th `open`, where no answer has been presented (rule R141, U10; log entry 3). -/
opaque freeOpenAnswer : Nat → Bool

/-- The count the Transport reports for the `k`-th `write`, where none has been presented; the machine cuts it to the legal
range (rules R56, R141, U10; log entry 3). -/
opaque freeWriteCount : Nat → Nat

/-- The bytes that arrive while the `k`-th `read` blocks, where none have been presented (rules R54, R141, U10; log entry 3). -/
opaque freeReadArrival : Nat → Bytes

end Sys2Proof.Config
end

