-- ==== Sys2Proof/Syntax.lean ====
section
/-! DEFINITION. What can be presented to the block, and the instructions those presentations stand for.

Every row of `spec/opcode_table.json` has one constructor of `Instr`: the twelve operations and four reserved selectors of
rule R91 and rule R92, the caller's pseudo-operation POLL_REARM (rule R169), and the frames of rules R80 and R84. A frame is
no request: it reaches the block as the bytes of an environment step ARRIVE (rule R53), and that step is what its row's
instruction is (log entry 4). -/

namespace Sys2Proof

/-- The operand ports of a request (rules R91, R93): every operand by value; an operation reads only its own. -/
structure Ports where
  identifier    : PortId := 0
  baudRate      : BaudRate := 0
  readTimeoutMs : Millis := 0
  timeoutPeriod : Int := 0
  now           : Int := 0
  header        : Header := 0
  floats        : List Word := []
  deriving DecidableEq, Repr

/-- A request: a 4-bit selector and the operands, presented together (rule R91). -/
structure Request where
  selector : Selector
  ports    : Ports := {}
  deriving DecidableEq, Repr

/-- One event of a run (rule R215), as it stands outside the block before it is decoded. -/
inductive Presented where
  /-- The caller issues one request and waits for its completion (rules R64, R91). -/
  | request (r : Request)
  /-- The caller runs its staleness poll, a sequence of requests with no selector of its own (rules R97, R169). -/
  | poll (now : Int) (period : Int)
  /-- The environment's step `ARRIVE(a)` (rule R53): any bytes at all, in any grouping. -/
  | arrival (a : Bytes)
  /-- Two requests that overlap in time on this block (rules R65, R223). -/
  | overlapping (first second : Request)
  deriving DecidableEq, Repr

/-- The instructions, one constructor per row of `spec/opcode_table.json`. -/
inductive Instr where
  | opOpen (identifier : PortId) (baudRate : BaudRate) (readTimeoutMs : Millis) (timeoutPeriod : Int) (now : Int)
  | opClose
  | opIsOpen
  | opEncode (header : Header) (floats : List Word)
  | opSend (header : Header) (floats : List Word)
  | opDecode
  | opReceive (now : Int)
  | opDiscard
  | opOnFrameDecoded (now : Int)
  | opIsLive (now : Int) (timeoutPeriod : Int)
  | opRearm
  | opReadLs
  | reservedC
  | reservedD
  | reservedE
  | reservedF
  | pollRearm (now : Int) (period : Int)
  | frameN0 (header : Header) (floats : List Word) (checksum : Byte)
  | frameN1 (header : Header) (floats : List Word) (checksum : Byte)
  | frameN2 (header : Header) (floats : List Word) (checksum : Byte)
  | frameN3 (header : Header) (floats : List Word) (checksum : Byte)
  | frameN4 (header : Header) (floats : List Word) (checksum : Byte)
  | frameN5 (header : Header) (floats : List Word) (checksum : Byte)
  | frameN6 (header : Header) (floats : List Word) (checksum : Byte)
  | frameN7 (header : Header) (floats : List Word) (checksum : Byte)
  | frameN8 (header : Header) (floats : List Word) (checksum : Byte)
  | frameN9 (header : Header) (floats : List Word) (checksum : Byte)
  | frameN10 (header : Header) (floats : List Word) (checksum : Byte)
  | frameIllegal (header : Header) (count : Byte)
  deriving DecidableEq, Repr

end Sys2Proof
end

