-- ==== Sys2Proof/Machine/State.lean ====
section
/-! DEFINITION. The state of the machine, as plain data, and its value at reset (rules R20 to R40; INVENTORY.md, "State"). -/

namespace Sys2Proof.Machine

/-- LinkState, the block's one persistent record (rules R20, R23 to R26). -/
structure LinkState where
  /-- Mirrors the Transport (rule R23). -/
  isOpen        : Bool
  /-- True means not recently confirmed live (rule R24). -/
  timeoutFlag   : Bool
  /-- The time of the last frame that decoded, the session start before the first one (rule R25). -/
  lastLiveAt    : Int
  /-- The configured duration, read back by READ_LS only (rule R26). -/
  timeoutPeriod : Int
  deriving DecidableEq, Repr

/-- The pass-through configuration (rule R27). -/
structure LinkConfig where
  portId        : PortId
  baudRate      : BaudRate
  readTimeoutMs : Millis
  deriving DecidableEq, Repr

/-- A session: the lifetime of LinkState and of the configuration, which come and go together (rules R22, R27, R144). -/
structure Session where
  link   : LinkState
  config : LinkConfig
  deriving DecidableEq, Repr

/-- The four failure classes (rules R13, R180). -/
inductive Failure where
  | tooManyValues
  | incomplete
  | checksumMismatch
  | connectionError
  deriving DecidableEq, Repr

/-- What a successful operation returns (the result column of rule R91). -/
inductive Value where
  | nothing
  | bool (b : Bool)
  | bytes (bs : Bytes)
  | frame (header : Header) (floats : List Word)
  | linkState (l : LinkState)
  deriving DecidableEq, Repr

/-- The completion of an operation: `Ok(v)` or `Err(E, discard)` (rule R13). -/
inductive Completion where
  | ok (v : Value)
  | err (e : Failure) (discard : Bool)
  deriving DecidableEq, Repr

/-- One call of the Transport capability set, with the values handed to it (rules R52, R140, R141). -/
inductive TransportCall where
  | openPort (identifier : PortId) (baudRate : BaudRate)
  | closePort
  | read (maxBytes : Nat) (timeout : Millis)
  | write (bytes : Bytes)
  | discardInputBuffer
  deriving DecidableEq, Repr

/-- The environment's draws (rules R12, R141): for each kind of call the answers presented so far and not yet used, oldest
first, and how many calls of that kind have been answered. When no answer is presented the answer is the free value of
`Config` for that call's number (log entry 3). -/
structure Environment where
  openAnswers  : List Bool
  writeCounts  : List Nat
  readArrivals : List Bytes
  opens        : Nat
  writes       : Nat
  reads        : Nat
  deriving DecidableEq, Repr

/-- Why a step stops with a fault. The spec has no such reason: its failures are results that leave a next state (rules R14,
R188), so this type has no constructor and no step faults. -/
inductive Fault
  deriving DecidableEq, Repr

/-- Why a request is refused (rules R14, R196): the spec gives it no next state. Every constructor is safe: the machine stops
where the spec says nothing can be claimed. -/
inductive Refusal where
  /-- The row has no meaning in the model yet; raised by `exec`'s refused arms only (safe). -/
  | notModelled (mnemonic : String)
  /-- An operation that needs a session, issued while none exists (rule R196, U2): DECODE, RECEIVE, DISCARD,
  ON_FRAME_DECODED, IS_LIVE, REARM, READ_LS, and POLL_REARM through its READ_LS (safe). -/
  | noSession
  /-- OPEN while a session exists (rules R145, R196, U3) (safe). -/
  | sessionExists
  /-- A reserved selector (rules R92, R196, U1) (safe). -/
  | reservedSelector (selector : Selector)
  /-- Two overlapping requests on one block (rules R196, R223, U4) (safe). -/
  | overlappingOperations
  deriving DecidableEq, Repr

/-- The machine: what the block owns, what the environment owns and the block reads and changes, and the model's own
record of what passes between them. -/
structure State where
  /-- LinkState and the configuration, `none` while no session exists (rules R22, R27). -/
  session    : Option Session
  /-- `T.open`, whether the Transport endpoint is open (rule R34). -/
  tOpen      : Bool
  /-- `RX`, the Transport's buffered inbound bytes, oldest first (rule R32). -/
  rx         : Bytes
  /-- `TX`, the bytes the Transport has accepted in this session, oldest first (rule R33). -/
  tx         : Bytes
  /-- The model's own field: the status and results of the last operation that completed (rules R91, R94; log entry 7). -/
  completion : Option Completion
  /-- The model's own field: every Transport call so far, oldest first (rules R52, R141; log entry 8). -/
  calls      : List TransportCall
  /-- The model's own field: the environment's draws (rules R12, R141; log entry 3). -/
  env        : Environment
  /-- The model's own field: the events still to come, the next one first (rule R215; log entry 1). -/
  inbox      : List Presented
  deriving DecidableEq, Repr

/-- `LS` (rule R22). -/
def State.ls (s : State) : Option LinkState := s.session.map Session.link

/-- `CFG` (rule R27). -/
def State.cfg (s : State) : Option LinkConfig := s.session.map Session.config

/-- No answer presented and no call made (DESIGN CHOICE, log entry 3). -/
def Environment.reset : Environment :=
  { openAnswers := [], writeCounts := [], readArrivals := [], opens := 0, writes := 0, reads := 0 }

/-- Power-up reset (rules R37, R210): no session, no configuration, the endpoint closed, `TX` empty, `RX` any bytes. -/
def State.reset : State :=
  { session := none, tOpen := false, rx := Config.resetRx, tx := [], completion := none, calls := [],
    env := Environment.reset, inbox := [] }

end Sys2Proof.Machine
end

