-- ==== Sys2Proof/Machine/Flags.lean ====
section
/-! DEFINITION. The Booleans and codes a caller can observe: the `discard` flag, the status, the two comparators
(rules R31, R94, R163, R164, R169). -/

namespace Sys2Proof.Machine

/-- Whether a decode failure demands the discard: the two that indicate framing corruption do (rules R120, R181). -/
def discardDemanded : Failure → Bool
  | .tooManyValues => true
  | .incomplete => false
  | .checksumMismatch => true
  | .connectionError => false

/-- A failure of DECODE or RECEIVE, with its `discard` flag (rules R31, R121, R181). -/
def decodeFailure (e : Failure) : Completion := .err e (discardDemanded e)

/-- A failure of ENCODE, SEND or OPEN: `discard` is 0 (rules R31, R111, R114, R145). -/
def requestFailure (e : Failure) : Completion := .err e false

/-- The numeric status of a completion (rule R94, decision D4). -/
def Completion.status : Completion → Nat
  | .ok _ => 0
  | .err .tooManyValues _ => 1
  | .err .incomplete _ => 2
  | .err .checksumMismatch _ => 3
  | .err .connectionError _ => 4

/-- The one-bit `discard` output beside the status (rules R31, R94). -/
def Completion.discard : Completion → Bool
  | .ok _ => false
  | .err _ d => d

/-- `isLive(now, timeoutPeriod)` (rules R163, R164): exact signed difference, strict comparison. -/
def linkIsLive (l : LinkState) (now : Int) (period : Int) : Bool :=
  !l.timeoutFlag && decide (now - l.lastLiveAt < period)

/-- The caller's staleness condition, strictly exceeded (rule R169, decision D15). -/
def pollExceeded (l : LinkState) (now : Int) (period : Int) : Bool := decide (period < now - l.lastLiveAt)

end Sys2Proof.Machine
end

