-- ==== Sys2Proof/Machine/Codec.lean ====
section
/-! DEFINITION. The wire frame: byte orders, checksum, `frame`, well-formedness and `parse` (rules R51, R58, R59, R80 to R88).

These are the bit-field and byte-order helpers of the decoder, the encoder and the codec operations alike. -/

namespace Sys2Proof.Machine

/-- `header[15:8]`, the byte at frame offset 0 (rules R51, R58). -/
def headerHi (h : Header) : Byte := h.extractLsb' 8 8

/-- `header[7:0]`, the byte at frame offset 1 (rules R51, R58). -/
def headerLo (h : Header) : Byte := h.extractLsb' 0 8

/-- `header = (F[0] << 8) | F[1]` (rules R58, R85): big-endian, zero extension. -/
def headerOf (hi lo : Byte) : Header := (hi.setWidth 16 <<< 8) ||| lo.setWidth 16

/-- The four bytes of a lane, `w[7:0]` first (rules R51, R59): little-endian. -/
def wordBytes (w : Word) : Bytes :=
  [w.extractLsb' 0 8, w.extractLsb' 8 8, w.extractLsb' 16 8, w.extractLsb' 24 8]

/-- A lane from its four bytes in stream order (rules R59, R85). -/
def wordOf (b0 b1 b2 b3 : Byte) : Word :=
  b0.setWidth 32 ||| (b1.setWidth 32 <<< 8) ||| (b2.setWidth 32 <<< 16) ||| (b3.setWidth 32 <<< 24)

/-- The payload bytes of a vector, lane 0 first (rules R30, R87). -/
def payloadBytes : List Word → Bytes
  | [] => []
  | w :: ws => wordBytes w ++ payloadBytes ws

/-- The first `n` lanes of a byte sequence (rule R85; step 5 of rule R121). -/
def payloadWords : Nat → Bytes → List Word
  | n + 1, b0 :: b1 :: b2 :: b3 :: rest => wordOf b0 b1 b2 b3 :: payloadWords n rest
  | _, _ => []

/-- `xor_fold` (rule R11): `0x00` of the empty sequence, the exclusive OR of all bytes otherwise. -/
def xorFold : Bytes → Byte
  | [] => 0
  | b :: bs => b ^^^ xorFold bs

/-- The three bytes before the payload: header high, header low, count (rules R19, R87). -/
def framePrefix (h : Header) (count : Byte) : Bytes := [headerHi h, headerLo h, count]

/-- The bytes of a frame before its checksum, the `P` of rule R87. -/
def frameBody (h : Header) (fv : List Word) : Bytes :=
  framePrefix h (BitVec.ofNat 8 fv.length) ++ payloadBytes fv

/-- `frame(header, fv)` (rule R87). The spec defines it for at most ten lanes; ENCODE fails above that (rule R111). -/
def frame (h : Header) (fv : List Word) : Bytes := frameBody h fv ++ [xorFold (frameBody h fv)]

/-- The bytes of a frame as they are on the wire, with whatever checksum byte they carry (rule R80). -/
def wireBytes (h : Header) (count : Byte) (fv : List Word) (checksum : Byte) : Bytes :=
  framePrefix h count ++ payloadBytes fv ++ [checksum]

/-- The count byte at frame offset 2 (rules R51, R84), 0 where there is none. -/
def countOf (F : Bytes) : Nat := (F.getD 2 0).toNat

/-- A well-formed frame (rule R88). -/
def isWellFormedFrame (F : Bytes) : Bool :=
  decide (4 ≤ F.length) && decide (countOf F ≤ Config.maxFloats) && decide (F.length = Config.frameLength (countOf F)) &&
    decide (F.getD (F.length - 1) 0 = xorFold (F.take (F.length - 1)))

/-- `parse(F)` (rules R85, R88): the header and the lanes that the count announces. -/
def parseFrame (F : Bytes) : Header × List Word :=
  (headerOf (F.getD 0 0) (F.getD 1 0), payloadWords (countOf F) (F.drop Config.prefixLength))

end Sys2Proof.Machine
end

