-- ==== Sys2Proof/Machine/Operands.lean ====
section
/-! DEFINITION. The operands of the codec operations: the payload vector and the parts of what a decode has read. -/

namespace Sys2Proof.Machine

/-- `len(floats) > 10`, the encoder's length guard (rule R111). -/
def tooLong (fv : List Word) : Bool := decide (Config.maxFloats < fv.length)

/-- `count > 10` on the unsigned count byte, the decoder's length guard (rules R84, R123). -/
def countTooLarge (c : Byte) : Bool := decide (Config.maxFloats < c.toNat)

/-- The bytes wanted behind a prefix of that count (rules R62, R82, R124). -/
def bodyWanted (c : Byte) : Nat := Config.bodyLength c.toNat

/-- `body[0 : 4*count]` (step 4 of rule R121). -/
def payloadPart (c : Byte) (body : Bytes) : Bytes := body.take (4 * c.toNat)

/-- `body[4*count]` (step 4 of rule R121). -/
def checksumPart (c : Byte) (body : Bytes) : Byte := body.getD (4 * c.toNat) 0

end Sys2Proof.Machine
end

