-- ==== Sys2Proof/Machine/Ops.lean ====
section
/-! DEFINITION. The shared operations: the environment's draws, the stream primitives, the session, the completion.

The block has no memory and no registers; these are the only ways an operation reads or writes the state
(rules R50, R52, R54, R56, R57, R141). A failure is taken by completing with it (rule R188); nothing is saved and there is no
return from it (rule R190). -/

namespace Sys2Proof.Machine

/-- What an operation answers. -/
abbrev Answer := Host.Outcome State Fault Refusal

/-! ### Plain updates -/

/-- The operation ends with completion `c` (rules R13, R188). -/
def State.complete (s : State) (c : Completion) : State := { s with completion := some c }

def State.setRx (s : State) (bs : Bytes) : State := { s with rx := bs }

def State.setTx (s : State) (bs : Bytes) : State := { s with tx := bs }

def State.setSession (s : State) (x : Option Session) : State := { s with session := x }

def State.setTOpen (s : State) (b : Bool) : State := { s with tOpen := b }

def State.setEnv (s : State) (e : Environment) : State := { s with env := e }

/-- The call `c` of the Transport is made (rule R52). -/
def State.call (s : State) (c : TransportCall) : State := { s with calls := s.calls ++ [c] }

def State.setInbox (s : State) (l : List Presented) : State := { s with inbox := l }

/-! ### The environment's draws -/

/-- The Transport's answer to `open` (rule R141): the one presented, else the free one. -/
def openAnswer (e : Environment) : Bool := e.openAnswers.headD (Config.freeOpenAnswer e.opens)

/-- The count the Transport would report for a `write` (rule R56), before it is cut to the bytes offered. -/
def writeCount (e : Environment) : Nat := e.writeCounts.headD (Config.freeWriteCount e.writes)

/-- The bytes that arrive before a `read` returns (rule R54). -/
def readArrival (e : Environment) : Bytes := e.readArrivals.headD (Config.freeReadArrival e.reads)

/-- The environment after it has answered an `open`. -/
def Environment.afterOpen (e : Environment) : Environment :=
  { e with openAnswers := e.openAnswers.tail, opens := e.opens + 1 }

/-- The environment after it has answered a `write`. -/
def Environment.afterWrite (e : Environment) : Environment :=
  { e with writeCounts := e.writeCounts.tail, writes := e.writes + 1 }

/-- The environment after it has answered a `read`. -/
def Environment.afterRead (e : Environment) : Environment :=
  { e with readArrivals := e.readArrivals.tail, reads := e.reads + 1 }

/-! ### The environment's step and the three primitives -/

/-- `ARRIVE(a)` (rule R53). -/
def arrive (a : Bytes) (s : State) : State := s.setRx (s.rx ++ a)

/-- `RX` at the moment a read takes its bytes: what was buffered and what arrived while it blocked (rule R54). -/
def rxAtRead (s : State) : Bytes := s.rx ++ readArrival s.env

/-- The bytes `RxRead(n)` returns (rule R54). -/
def rxReadBytes (n : Nat) (s : State) : Bytes := (rxAtRead s).take n

/-- The state after `RxRead(n)` (rule R54), the read timeout handed to the Transport with it (rules R52, R150). -/
def rxReadState (n : Nat) (timeout : Millis) (s : State) : State :=
  ((s.setRx ((rxAtRead s).drop n)).setEnv s.env.afterRead).call (.read n timeout)

/-- The count `w` that `TxWrite(bs)` returns, `0 <= w <= len(bs)` (rule R56). -/
def txTaken (bs : Bytes) (s : State) : Nat := min (writeCount s.env) bs.length

/-- The state after `TxWrite(bs)`: the first `w` bytes are appended (rule R56). -/
def txWriteState (bs : Bytes) (s : State) : State :=
  ((s.setTx (s.tx ++ bs.take (txTaken bs s))).setEnv s.env.afterWrite).call (.write bs)

/-- `RxDiscard()` (rule R57). -/
def rxDiscard (s : State) : State := (s.setRx []).call .discardInputBuffer

/-! ### The session -/

/-- Runs an operation that needs a session; without one the request is refused before anything is tested
(rules R187, R196). -/
def withSession (s : State) (f : Session → Answer) : Answer :=
  match s.session with
  | none => .refused .noSession
  | some x => f x

/-- The state after `Transport.open` has been asked (rule R141). -/
def askOpen (identifier : PortId) (baudRate : BaudRate) (s : State) : State :=
  (s.setEnv s.env.afterOpen).call (.openPort identifier baudRate)

/-- The session a successful OPEN starts (rules R38, R145). -/
def freshSession (identifier : PortId) (baudRate : BaudRate) (readTimeoutMs : Millis) (timeoutPeriod : Int)
    (now : Int) : Session :=
  { link := { isOpen := true, timeoutFlag := true, lastLiveAt := now, timeoutPeriod := timeoutPeriod }
    config := { portId := identifier, baudRate := baudRate, readTimeoutMs := readTimeoutMs } }

/-- Session start: the endpoint is open, `TX` starts empty, `RX` is left alone (rules R38, R145). -/
def startSession (x : Session) (s : State) : State := ((s.setTOpen true).setSession (some x)).setTx []

/-- Session end: the Transport is closed, LinkState and the configuration are dropped (rules R39, R147). -/
def endSession (s : State) : State := ((s.setTOpen false).setSession none).call .closePort

/-! ### Liveness -/

/-- LinkState after a frame has decoded: the flag cleared, the time refreshed (rules R128, R161). -/
def LinkState.markLive (l : LinkState) (now : Int) : LinkState := { l with timeoutFlag := false, lastLiveAt := now }

/-- LinkState after the caller's re-arm: only the flag is written (rule R167). -/
def LinkState.rearm (l : LinkState) : LinkState := { l with timeoutFlag := true }

/-- The session `x` with its LinkState replaced. -/
def Session.withLink (x : Session) (l : LinkState) : Session := { x with link := l }

/-- A frame has decoded at time `now` (rules R128, R161). -/
def frameDecoded (x : Session) (now : Int) (s : State) : State :=
  s.setSession (some (x.withLink (x.link.markLive now)))

/-- The caller sets `timeoutFlag` (rule R167). -/
def setTimeoutFlag (x : Session) (s : State) : State := s.setSession (some (x.withLink x.link.rearm))

/-! ### The decoder's five steps -/

/-- Steps 4 and 5 on a prefix and a whole body (rules R125, R126). -/
def decodeWhole (hi lo c : Byte) (body : Bytes) : Completion :=
  if xorFold ([hi, lo, c] ++ payloadPart c body) = checksumPart c body then
    .ok (.frame (headerOf hi lo) (payloadWords c.toNat (payloadPart c body)))
  else decodeFailure .checksumMismatch

/-- Steps 3 to 5, the prefix read (rules R124 to R126). -/
def decodeBody (timeout : Millis) (hi lo c : Byte) (s : State) : Completion × State :=
  if (rxReadBytes (bodyWanted c) s).length < bodyWanted c then
    (decodeFailure .incomplete, rxReadState (bodyWanted c) timeout s)
  else (decodeWhole hi lo c (rxReadBytes (bodyWanted c) s), rxReadState (bodyWanted c) timeout s)

/-- The five steps of DECODE in their order, each ending the operation when it fails (rules R121 to R126). -/
def decodeSteps (timeout : Millis) (s : State) : Completion × State :=
  match rxReadBytes Config.prefixLength s with
  | [hi, lo, c] =>
    if countTooLarge c then (decodeFailure .tooManyValues, rxReadState Config.prefixLength timeout s)
    else decodeBody timeout hi lo c (rxReadState Config.prefixLength timeout s)
  | _ => (decodeFailure .incomplete, rxReadState Config.prefixLength timeout s)

/-- What the receive path does with a decode's result: refresh liveness on success, discard when the failure demands it,
nothing more otherwise (rules R128, R129, R130). -/
def receiveTail (x : Session) (now : Int) : Completion → State → State
  | .ok _, s => frameDecoded x now s
  | .err _ true, s => rxDiscard s
  | .err _ false, s => s

end Sys2Proof.Machine
end

