-- ==== Sys2Proof/Machine/FrameCodec.lean ====
section
/-! DEFINITION. The codec operations and the send and receive paths: ENCODE, SEND, DECODE, RECEIVE, DISCARD
(rules R110 to R131). -/

namespace Sys2Proof.Machine

/-- ENCODE (rules R111, R112): reads and writes no state, needs no session. -/
def execEncode (header : Header) (floats : List Word) (s : State) : Answer :=
  if tooLong floats then .next (s.complete (requestFailure .tooManyValues))
  else .next (s.complete (.ok (.bytes (frame header floats))))

/-- SEND (rules R114, R115): the length guard, then the session, then one write of the whole frame. -/
def execSend (header : Header) (floats : List Word) (s : State) : Answer :=
  if tooLong floats then .next (s.complete (requestFailure .tooManyValues))
  else
    match s.session with
    | none => .next (s.complete (requestFailure .connectionError))
    | some _ =>
      .next ((txWriteState (frame header floats) s).complete
        (if txTaken (frame header floats) s = (frame header floats).length then .ok .nothing
         else requestFailure .connectionError))

/-- DECODE (rule R121): it reports `discard` and does not discard (rule R129). -/
def execDecode (s : State) : Answer :=
  withSession s fun x =>
    .next ((decodeSteps x.config.readTimeoutMs s).2.complete (decodeSteps x.config.readTimeoutMs s).1)

/-- RECEIVE (rules R128 to R130). -/
def execReceive (now : Int) (s : State) : Answer :=
  withSession s fun x =>
    .next ((receiveTail x now (decodeSteps x.config.readTimeoutMs s).1
      (decodeSteps x.config.readTimeoutMs s).2).complete (decodeSteps x.config.readTimeoutMs s).1)

/-- DISCARD (rule R131). -/
def execDiscard (s : State) : Answer :=
  withSession s fun _ => .next ((rxDiscard s).complete (.ok .nothing))

end Sys2Proof.Machine
end

