-- ==== Sys2Proof/Machine/Liveness.lean ====
section
/-! DEFINITION. The liveness operations: ON_FRAME_DECODED, IS_LIVE, REARM and the caller's poll POLL_REARM
(rules R160 to R170). -/

namespace Sys2Proof.Machine

/-- ON_FRAME_DECODED (rules R161, R162): unguarded, no maximum taken. -/
def execOnFrameDecoded (now : Int) (s : State) : Answer :=
  withSession s fun x => .next ((frameDecoded x now s).complete (.ok .nothing))

/-- IS_LIVE (rules R163 to R165): its own period operand, no state written. -/
def execIsLive (now : Int) (timeoutPeriod : Int) (s : State) : Answer :=
  withSession s fun x => .next (s.complete (.ok (.bool (linkIsLive x.link now timeoutPeriod))))

/-- REARM (rule R167): unconditional. -/
def execRearm (s : State) : Answer :=
  withSession s fun x => .next ((setTimeoutFlag x s).complete (.ok .nothing))

/-- POLL_REARM (rules R97, R169): READ_LS, then REARM when the period is exceeded. The completion left is that of the last
request the poll issued (log entry 7). -/
def execPollRearm (now : Int) (period : Int) (s : State) : Answer :=
  withSession s fun x =>
    if pollExceeded x.link now period then
      .next ((setTimeoutFlag x (s.complete (.ok (.linkState x.link)))).complete (.ok .nothing))
    else .next (s.complete (.ok (.linkState x.link)))

end Sys2Proof.Machine
end

