-- ==== Sys2Proof/Machine/Reserved.lean ====
section
/-! DEFINITION. The reserved selectors (rule R92): each request is refused and has no next state. -/

namespace Sys2Proof.Machine

/-- Selector `0xC` (rules R92, R196). -/
def execReservedC (_s : State) : Answer := .refused (.reservedSelector 0xC)

/-- Selector `0xD` (rules R92, R196). -/
def execReservedD (_s : State) : Answer := .refused (.reservedSelector 0xD)

/-- Selector `0xE` (rules R92, R196). -/
def execReservedE (_s : State) : Answer := .refused (.reservedSelector 0xE)

/-- Selector `0xF` (rules R92, R196). -/
def execReservedF (_s : State) : Answer := .refused (.reservedSelector 0xF)

end Sys2Proof.Machine
end

