-- ==== Sys2Proof/Machine/Transport.lean ====
section
/-! DEFINITION. The session operations: OPEN, CLOSE, IS_OPEN, READ_LS (rules R144 to R151). -/

namespace Sys2Proof.Machine

/-- OPEN (rules R38, R145, R146). -/
def execOpen (identifier : PortId) (baudRate : BaudRate) (readTimeoutMs : Millis) (timeoutPeriod : Int) (now : Int)
    (s : State) : Answer :=
  match s.session with
  | some _ => .refused .sessionExists
  | none =>
    .next (if openAnswer s.env then
        (startSession (freshSession identifier baudRate readTimeoutMs timeoutPeriod now)
          (askOpen identifier baudRate s)).complete (.ok .nothing)
      else (askOpen identifier baudRate s).complete (requestFailure .connectionError))

/-- CLOSE (rules R39, R147): without a session it does nothing and succeeds. -/
def execClose (s : State) : Answer :=
  match s.session with
  | none => .next (s.complete (.ok .nothing))
  | some _ => .next ((endSession s).complete (.ok .nothing))

/-- IS_OPEN (rules R28, R149): the mirror `LS.isOpen`, false without a session; never refused. -/
def execIsOpen (s : State) : Answer :=
  match s.session with
  | none => .next (s.complete (.ok (.bool false)))
  | some x => .next (s.complete (.ok (.bool x.link.isOpen)))

/-- READ_LS (rule R151): the four fields as they stand. -/
def execReadLs (s : State) : Answer :=
  withSession s fun x => .next (s.complete (.ok (.linkState x.link)))

end Sys2Proof.Machine
end

