-- ==== Sys2Proof/Machine/Wire.lean ====
section
/-! DEFINITION. The frame rows: a frame that comes in over the link is the environment's step ARRIVE of its bytes
(rules R53, R80, R84; log entry 4). What the block makes of the bytes is DECODE's and RECEIVE's business (rule R120). -/

namespace Sys2Proof.Machine

/-- The bytes of a frame with count byte `n` arrive (rules R53, R80). -/
def arriveFrame (n : Nat) (header : Header) (floats : List Word) (checksum : Byte) (s : State) : State :=
  arrive (wireBytes header (BitVec.ofNat 8 n) floats checksum) s

/-- FRAME_N0: a frame of count 0 arrives (rules R53, R80, R82). -/
def execFrameN0 (header : Header) (floats : List Word) (checksum : Byte) (s : State) : Answer :=
  .next (arriveFrame 0 header floats checksum s)

/-- FRAME_N1: a frame of count 1 arrives (rules R53, R80, R82). -/
def execFrameN1 (header : Header) (floats : List Word) (checksum : Byte) (s : State) : Answer :=
  .next (arriveFrame 1 header floats checksum s)

/-- FRAME_N2: a frame of count 2 arrives (rules R53, R80, R82). -/
def execFrameN2 (header : Header) (floats : List Word) (checksum : Byte) (s : State) : Answer :=
  .next (arriveFrame 2 header floats checksum s)

/-- FRAME_N3: a frame of count 3 arrives (rules R53, R80, R82). -/
def execFrameN3 (header : Header) (floats : List Word) (checksum : Byte) (s : State) : Answer :=
  .next (arriveFrame 3 header floats checksum s)

/-- FRAME_N4: a frame of count 4 arrives (rules R53, R80, R82). -/
def execFrameN4 (header : Header) (floats : List Word) (checksum : Byte) (s : State) : Answer :=
  .next (arriveFrame 4 header floats checksum s)

/-- FRAME_N5: a frame of count 5 arrives (rules R53, R80, R82). -/
def execFrameN5 (header : Header) (floats : List Word) (checksum : Byte) (s : State) : Answer :=
  .next (arriveFrame 5 header floats checksum s)

/-- FRAME_N6: a frame of count 6 arrives (rules R53, R80, R82). -/
def execFrameN6 (header : Header) (floats : List Word) (checksum : Byte) (s : State) : Answer :=
  .next (arriveFrame 6 header floats checksum s)

/-- FRAME_N7: a frame of count 7 arrives (rules R53, R80, R82). -/
def execFrameN7 (header : Header) (floats : List Word) (checksum : Byte) (s : State) : Answer :=
  .next (arriveFrame 7 header floats checksum s)

/-- FRAME_N8: a frame of count 8 arrives (rules R53, R80, R82). -/
def execFrameN8 (header : Header) (floats : List Word) (checksum : Byte) (s : State) : Answer :=
  .next (arriveFrame 8 header floats checksum s)

/-- FRAME_N9: a frame of count 9 arrives (rules R53, R80, R82). -/
def execFrameN9 (header : Header) (floats : List Word) (checksum : Byte) (s : State) : Answer :=
  .next (arriveFrame 9 header floats checksum s)

/-- FRAME_N10: a frame of count 10 arrives (rules R53, R80, R82). -/
def execFrameN10 (header : Header) (floats : List Word) (checksum : Byte) (s : State) : Answer :=
  .next (arriveFrame 10 header floats checksum s)

/-- FRAME_ILLEGAL: the prefix of a frame whose count is above 10 arrives (rules R53, R84). What follows such a prefix on the
link belongs to no frame and arrives as plain bytes. -/
def execFrameIllegal (header : Header) (count : Byte) (s : State) : Answer :=
  .next (arrive (framePrefix header count) s)

end Sys2Proof.Machine
end

