-- ==== Sys2Proof/Machine/Dispatch.lean ====
section
/-! DEFINITION. The dispatch: one arm per constructor of `Instr`, each one direct call of its meaning. -/

namespace Sys2Proof.Machine

def exec (i : Instr) (s : State) : Host.Outcome State Fault Refusal :=
  match i with
  | .opOpen p b t tp now => Sys2Proof.Machine.execOpen p b t tp now s
  | .opClose => Sys2Proof.Machine.execClose s
  | .opIsOpen => Sys2Proof.Machine.execIsOpen s
  | .opEncode h fv => Sys2Proof.Machine.execEncode h fv s
  | .opSend h fv => Sys2Proof.Machine.execSend h fv s
  | .opDecode => Sys2Proof.Machine.execDecode s
  | .opReceive now => Sys2Proof.Machine.execReceive now s
  | .opDiscard => Sys2Proof.Machine.execDiscard s
  | .opOnFrameDecoded now => Sys2Proof.Machine.execOnFrameDecoded now s
  | .opIsLive now tp => Sys2Proof.Machine.execIsLive now tp s
  | .opRearm => Sys2Proof.Machine.execRearm s
  | .opReadLs => Sys2Proof.Machine.execReadLs s
  | .reservedC => Sys2Proof.Machine.execReservedC s
  | .reservedD => Sys2Proof.Machine.execReservedD s
  | .reservedE => Sys2Proof.Machine.execReservedE s
  | .reservedF => Sys2Proof.Machine.execReservedF s
  | .pollRearm now period => Sys2Proof.Machine.execPollRearm now period s
  | .frameN0 h fv ck => Sys2Proof.Machine.execFrameN0 h fv ck s
  | .frameN1 h fv ck => Sys2Proof.Machine.execFrameN1 h fv ck s
  | .frameN2 h fv ck => Sys2Proof.Machine.execFrameN2 h fv ck s
  | .frameN3 h fv ck => Sys2Proof.Machine.execFrameN3 h fv ck s
  | .frameN4 h fv ck => Sys2Proof.Machine.execFrameN4 h fv ck s
  | .frameN5 h fv ck => Sys2Proof.Machine.execFrameN5 h fv ck s
  | .frameN6 h fv ck => Sys2Proof.Machine.execFrameN6 h fv ck s
  | .frameN7 h fv ck => Sys2Proof.Machine.execFrameN7 h fv ck s
  | .frameN8 h fv ck => Sys2Proof.Machine.execFrameN8 h fv ck s
  | .frameN9 h fv ck => Sys2Proof.Machine.execFrameN9 h fv ck s
  | .frameN10 h fv ck => Sys2Proof.Machine.execFrameN10 h fv ck s
  | .frameIllegal h c => Sys2Proof.Machine.execFrameIllegal h c s

end Sys2Proof.Machine
end

