-- ==== Sys2Proof/WellFormed.lean ====
section
/-! DEFINITION. Which terms of `Instr` stand for an instruction of the table: the checks on a frame row's operands.

An operation's operands need no check: every header, every payload length, every time, period and configuration value may be
presented (rules R83, R93, R146). -/

namespace Sys2Proof

/-- A frame row's lanes are as many as its count (rules R82, R84). -/
def lanesMatch (n : Nat) (fv : List Word) : Bool := decide (fv.length = n)

/-- A frame row's checksum byte is the exclusive OR of all bytes before it (rule R86). -/
def checksumMatches (n : Nat) (h : Header) (fv : List Word) (ck : Byte) : Bool :=
  decide (ck = Machine.xorFold (Machine.framePrefix h (BitVec.ofNat 8 n) ++ Machine.payloadBytes fv))

/-- An illegal count byte is one above 10 (rule R84). -/
def countIllegal (c : Byte) : Bool := decide (Config.maxFloats < c.toNat)

/-- Both checks of a legal frame of count `n`. -/
def frameWellFormed (n : Nat) (h : Header) (fv : List Word) (ck : Byte) : Bool :=
  lanesMatch n fv && checksumMatches n h fv ck

/-- The well-formed instructions. -/
def wellFormed : Instr → Bool
  | .opOpen _ _ _ _ _ => true
  | .opClose => true
  | .opIsOpen => true
  | .opEncode _ _ => true
  | .opSend _ _ => true
  | .opDecode => true
  | .opReceive _ => true
  | .opDiscard => true
  | .opOnFrameDecoded _ => true
  | .opIsLive _ _ => true
  | .opRearm => true
  | .opReadLs => true
  | .reservedC => true
  | .reservedD => true
  | .reservedE => true
  | .reservedF => true
  | .pollRearm _ _ => true
  | .frameN0 h fv ck => frameWellFormed 0 h fv ck
  | .frameN1 h fv ck => frameWellFormed 1 h fv ck
  | .frameN2 h fv ck => frameWellFormed 2 h fv ck
  | .frameN3 h fv ck => frameWellFormed 3 h fv ck
  | .frameN4 h fv ck => frameWellFormed 4 h fv ck
  | .frameN5 h fv ck => frameWellFormed 5 h fv ck
  | .frameN6 h fv ck => frameWellFormed 6 h fv ck
  | .frameN7 h fv ck => frameWellFormed 7 h fv ck
  | .frameN8 h fv ck => frameWellFormed 8 h fv ck
  | .frameN9 h fv ck => frameWellFormed 9 h fv ck
  | .frameN10 h fv ck => frameWellFormed 10 h fv ck
  | .frameIllegal _ c => countIllegal c

end Sys2Proof
end

