-- ==== Sys2Proof/Decode.lean ====
section
/-! DEFINITION. The decoder, total on everything that can be presented and rejecting by name; after it the encoder.

A request is told apart by its selector (rules R91, R92); the bytes of an arrival are one frame of the table when their count
byte says so and their number fits it (rules R80, R82, R84). A checksum byte is an operand here (the `X` bits of the table's
pattern, rule R98); that it is right is `wellFormed`'s check. -/

namespace Sys2Proof

/-- Why the bytes of one arrival are not exactly one frame of the table. -/
inductive FrameReject where
  /-- Fewer than the three bytes of a prefix (rule R122). -/
  | shortPrefix
  /-- Fewer bytes behind the prefix than its count announces: an unfinished frame (rule R89). -/
  | shortBody
  /-- More bytes than the frame, or than the prefix of an illegal count, has (rule R51). -/
  | excessBytes
  deriving DecidableEq, Repr

/-- Why a presentation is no instruction of the table. -/
inductive Reject where
  /-- An arrival whose bytes are not exactly one frame; it is still an `ARRIVE` (rule R53). -/
  | notOneFrame (why : FrameReject) (a : Bytes)
  /-- Two overlapping requests (rules R196, R223). -/
  | overlappingRequests
  deriving DecidableEq, Repr

/-- The operation of a request: the selector table of rules R91 and R92, each operand from its own port (rule R93). -/
def decodeRequest (r : Request) : Instr :=
  match r.selector.toNat with
  | 0x0 => .opOpen r.ports.identifier r.ports.baudRate r.ports.readTimeoutMs r.ports.timeoutPeriod r.ports.now
  | 0x1 => .opClose
  | 0x2 => .opIsOpen
  | 0x3 => .opEncode r.ports.header r.ports.floats
  | 0x4 => .opSend r.ports.header r.ports.floats
  | 0x5 => .opDecode
  | 0x6 => .opReceive r.ports.now
  | 0x7 => .opDiscard
  | 0x8 => .opOnFrameDecoded r.ports.now
  | 0x9 => .opIsLive r.ports.now r.ports.timeoutPeriod
  | 0xA => .opRearm
  | 0xB => .opReadLs
  | 0xC => .reservedC
  | 0xD => .reservedD
  | 0xE => .reservedE
  | _ => .reservedF

/-- The frame row of a count, none above 10 (rule R84; the rows FRAME_N0 to FRAME_N10 of the table). -/
def frameRow : Nat → Option (Header → List Word → Byte → Instr)
  | 0 => some .frameN0
  | 1 => some .frameN1
  | 2 => some .frameN2
  | 3 => some .frameN3
  | 4 => some .frameN4
  | 5 => some .frameN5
  | 6 => some .frameN6
  | 7 => some .frameN7
  | 8 => some .frameN8
  | 9 => some .frameN9
  | 10 => some .frameN10
  | _ => none

/-- The frame that the bytes of an arrival are, if they are exactly one (rules R80, R82, R84, R85). -/
def decodeArrival : Bytes → Except FrameReject Instr
  | hi :: lo :: c :: body =>
    match frameRow c.toNat with
    | some row =>
      if body.length < Config.bodyLength c.toNat then .error .shortBody
      else if Config.bodyLength c.toNat < body.length then .error .excessBytes
      else .ok (row (Machine.headerOf hi lo) (Machine.payloadWords c.toNat body) (body.getD (4 * c.toNat) 0))
    | none => if body = [] then .ok (.frameIllegal (Machine.headerOf hi lo) c) else .error .excessBytes
  | _ => .error .shortPrefix

/-- The decoder. -/
def decode : Presented → Except Reject Instr
  | .request r => .ok (decodeRequest r)
  | .poll now period => .ok (.pollRearm now period)
  | .arrival a =>
    match decodeArrival a with
    | .ok i => .ok i
    | .error why => .error (.notOneFrame why a)
  | .overlapping _ _ => .error .overlappingRequests

/-- A request with nothing on its ports but what is given (an unused port holds its idle value, which no operation reads). -/
def encodeRequest (selector : Selector) (ports : Ports := {}) : Presented :=
  .request { selector := selector, ports := ports }

/-- The bytes of a frame row (rules R51, R80, R81). -/
def encodeFrame (n : Nat) (h : Header) (fv : List Word) (ck : Byte) : Presented :=
  .arrival (Machine.wireBytes h (BitVec.ofNat 8 n) fv ck)

/-- The encoder: how each instruction is presented (the selector table of rule R91, the frame layout of rule R80). -/
def encode : Instr → Presented
  | .opOpen p b t tp now =>
    encodeRequest 0x0 { identifier := p, baudRate := b, readTimeoutMs := t, timeoutPeriod := tp, now := now }
  | .opClose => encodeRequest 0x1
  | .opIsOpen => encodeRequest 0x2
  | .opEncode h fv => encodeRequest 0x3 { header := h, floats := fv }
  | .opSend h fv => encodeRequest 0x4 { header := h, floats := fv }
  | .opDecode => encodeRequest 0x5
  | .opReceive now => encodeRequest 0x6 { now := now }
  | .opDiscard => encodeRequest 0x7
  | .opOnFrameDecoded now => encodeRequest 0x8 { now := now }
  | .opIsLive now tp => encodeRequest 0x9 { now := now, timeoutPeriod := tp }
  | .opRearm => encodeRequest 0xA
  | .opReadLs => encodeRequest 0xB
  | .reservedC => encodeRequest 0xC
  | .reservedD => encodeRequest 0xD
  | .reservedE => encodeRequest 0xE
  | .reservedF => encodeRequest 0xF
  | .pollRearm now period => .poll now period
  | .frameN0 h fv ck => encodeFrame 0 h fv ck
  | .frameN1 h fv ck => encodeFrame 1 h fv ck
  | .frameN2 h fv ck => encodeFrame 2 h fv ck
  | .frameN3 h fv ck => encodeFrame 3 h fv ck
  | .frameN4 h fv ck => encodeFrame 4 h fv ck
  | .frameN5 h fv ck => encodeFrame 5 h fv ck
  | .frameN6 h fv ck => encodeFrame 6 h fv ck
  | .frameN7 h fv ck => encodeFrame 7 h fv ck
  | .frameN8 h fv ck => encodeFrame 8 h fv ck
  | .frameN9 h fv ck => encodeFrame 9 h fv ck
  | .frameN10 h fv ck => encodeFrame 10 h fv ck
  | .frameIllegal h c => .arrival (Machine.framePrefix h c)

/-- Byte `k` of a frame word: the table's first word is the 24-bit prefix read as a big-endian number (rule R98), and the
bytes behind the prefix count on from bit 24. -/
def tableFrameByte (w k : Nat) : Byte :=
  if k < Config.prefixLength then BitVec.ofNat 8 (w >>> (8 * (2 - k))) else BitVec.ofNat 8 (w >>> (8 * k))

/-- How many bytes a frame word's prefix announces: the prefix alone when its count is illegal (rules R82, R84). -/
def tableFrameLength (w : Nat) : Nat :=
  if w % 256 ≤ Config.maxFloats then Config.frameLength (w % 256) else Config.prefixLength

/-- The bits of a table row laid out as they are presented: up to eight bits are a selector (mask `0xF`), more are a frame.
The table gives an operation's operands no bits: its ports are idle (log entry 9). -/
def tableWord (nbits w : Nat) : Presented :=
  if nbits ≤ 8 then encodeRequest (BitVec.ofNat 4 w)
  else .arrival ((List.range (tableFrameLength w)).map (tableFrameByte w))

/-- The instruction the decoder reads from a row's bits. -/
def decodeTableWord (nbits w : Nat) : Option Instr :=
  match decode (tableWord nbits w) with
  | .ok i => some i
  | .error _ => none

end Sys2Proof
end

