-- ==== Sys2Proof/Machine/Fetch.lean ====
section
/-! DEFINITION. Fetching: the next event of the run is the head of the inbox (rule R215). -/

namespace Sys2Proof.Machine

/-- The state once the next event has been taken. -/
def afterFetch (s : State) : State := s.setInbox s.inbox.tail

/-- A presentation that is no instruction of the table: bytes that are not exactly one frame arrive all the same
(rule R53); overlapping requests are refused (rules R196, R223). -/
def runUndecoded (r : Reject) (s : State) : Answer :=
  match r with
  | .notOneFrame _ a => .next (arrive a s)
  | .overlappingRequests => .refused .overlappingOperations

end Sys2Proof.Machine
end

