-- ==== Sys2Proof/Machine/Step.lean ====
section
/-! DEFINITION. One step of a run: the next event is taken, decoded and executed to completion (rules R15, R64, R215). -/

namespace Sys2Proof.Machine

/-- One step. With no event to come the run has ended and the state stays as it is (rules R210, R215; log entry 1). -/
def step (s : State) : Host.Outcome State Fault Refusal :=
  match s.inbox with
  | [] => .next s
  | p :: _ =>
    match decode p with
    | .ok i => exec i (afterFetch s)
    | .error r => runUndecoded r (afterFetch s)

/-- The state with a row's word presented as the very next event (log entry 1). -/
def State.withFetchWord (s : State) (nbits w : Nat) : State := s.setInbox (tableWord nbits w :: s.inbox)

end Sys2Proof.Machine
end

