-- ==== Sys2Proof/Laws/Codec.lean ====
section
/-! SUPPORT. The laws of the wire frame's helpers: lengths, byte orders both ways, the checksum over concatenation. -/

namespace Sys2Proof.Machine

theorem headerOf_headerHi_headerLo (h : Header) : headerOf (headerHi h) (headerLo h) = h := by
  ext i hi
  simp only [headerOf, headerHi, headerLo, BitVec.getElem_or, BitVec.getElem_shiftLeft, BitVec.getElem_setWidth,
    BitVec.getLsbD_extractLsb']
  interval_cases i <;> simp [BitVec.getLsbD_eq_getElem]

theorem headerHi_headerOf (hi lo : Byte) : headerHi (headerOf hi lo) = hi := by
  ext i hi'
  simp only [headerOf, headerHi, BitVec.getElem_extractLsb', BitVec.getLsbD_or, BitVec.getLsbD_shiftLeft,
    BitVec.getLsbD_setWidth]
  interval_cases i <;> simp [BitVec.getLsbD_eq_getElem]

theorem headerLo_headerOf (hi lo : Byte) : headerLo (headerOf hi lo) = lo := by
  ext i hi'
  simp only [headerOf, headerLo, BitVec.getElem_extractLsb', BitVec.getLsbD_or, BitVec.getLsbD_shiftLeft,
    BitVec.getLsbD_setWidth]
  interval_cases i <;> simp [BitVec.getLsbD_eq_getElem]

theorem wordOf_wordBytes (w : Word) :
    wordOf (w.extractLsb' 0 8) (w.extractLsb' 8 8) (w.extractLsb' 16 8) (w.extractLsb' 24 8) = w := by
  ext i hi
  simp only [wordOf, BitVec.getElem_or, BitVec.getElem_shiftLeft, BitVec.getElem_setWidth,
    BitVec.getLsbD_extractLsb']
  interval_cases i <;> simp [BitVec.getLsbD_eq_getElem]

theorem wordBytes_wordOf (b0 b1 b2 b3 : Byte) : wordBytes (wordOf b0 b1 b2 b3) = [b0, b1, b2, b3] := by
  simp only [wordBytes, List.cons.injEq, and_true]
  refine ⟨?_, ?_, ?_, ?_⟩ <;>
  · ext i hi
    simp only [wordOf, BitVec.getElem_extractLsb', BitVec.getLsbD_or, BitVec.getLsbD_shiftLeft, BitVec.getLsbD_setWidth]
    interval_cases i <;> simp [BitVec.getLsbD_eq_getElem]

@[simp] theorem wordBytes_length (w : Word) : (wordBytes w).length = 4 := rfl

@[simp] theorem payloadBytes_length (fv : List Word) : (payloadBytes fv).length = 4 * fv.length := by
  induction fv with
  | nil => rfl
  | cons w ws ih => simp [payloadBytes, ih]; omega

/-- Lanes come back from their bytes, whatever stands behind them. -/
theorem payloadWords_payloadBytes (fv : List Word) (rest : Bytes) :
    payloadWords fv.length (payloadBytes fv ++ rest) = fv := by
  induction fv with
  | nil => simp [payloadWords]
  | cons w ws ih => simpa [payloadBytes, wordBytes, payloadWords, wordOf_wordBytes] using ih

/-- The lanes of enough bytes are as many as were asked for. -/
theorem payloadWords_length (n : Nat) (bs : Bytes) (h : 4 * n ≤ bs.length) : (payloadWords n bs).length = n := by
  induction n generalizing bs with
  | zero => simp [payloadWords]
  | succ n ih =>
    match bs with
    | b0 :: b1 :: b2 :: b3 :: rest => simp [payloadWords]; exact ih rest (by simp at h; omega)
    | [] | [_] | [_, _] | [_, _, _] => simp at h <;> omega

/-- The bytes of the lanes of enough bytes are those bytes. -/
theorem payloadBytes_payloadWords (n : Nat) (bs : Bytes) (h : 4 * n ≤ bs.length) :
    payloadBytes (payloadWords n bs) = bs.take (4 * n) := by
  induction n generalizing bs with
  | zero => simp [payloadWords, payloadBytes]
  | succ n ih =>
    match bs with
    | b0 :: b1 :: b2 :: b3 :: rest =>
      have hr : 4 * n ≤ rest.length := by simp at h; omega
      simp [payloadWords, payloadBytes, wordBytes_wordOf, ih rest hr, show 4 * (n + 1) = 4 * n + 1 + 1 + 1 + 1 by omega]
    | [] | [_] | [_, _] | [_, _, _] => simp at h <;> omega

@[simp] theorem framePrefix_length (h : Header) (c : Byte) : (framePrefix h c).length = 3 := rfl

@[simp] theorem frameBody_length (h : Header) (fv : List Word) : (frameBody h fv).length = 3 + 4 * fv.length := by
  simp [frameBody]

@[simp] theorem frame_length (h : Header) (fv : List Word) : (frame h fv).length = Config.frameLength fv.length := by
  simp [frame, Config.frameLength]; omega

theorem xorFold_append (s t : Bytes) : xorFold (s ++ t) = xorFold s ^^^ xorFold t := by
  induction s with
  | nil => simp [xorFold]
  | cons b bs ih => simp [xorFold, ih, BitVec.xor_assoc]

/-- A sequence closed by its own checksum folds to zero. -/
theorem xorFold_closed (s : Bytes) : xorFold (s ++ [xorFold s]) = 0 := by
  simp [xorFold_append, xorFold]

/-- `frame` is the wire bytes of the pair with the right checksum. -/
theorem frame_eq_wireBytes (h : Header) (fv : List Word) :
    frame h fv = wireBytes h (BitVec.ofNat 8 fv.length) fv (xorFold (frameBody h fv)) := rfl

@[simp] theorem wireBytes_length (h : Header) (c : Byte) (fv : List Word) (ck : Byte) :
    (wireBytes h c fv ck).length = Config.frameLength fv.length := by
  simp [wireBytes, Config.frameLength]; omega

/-- The four tests of a well-formed frame. -/
theorem isWellFormedFrame_iff (F : Bytes) :
    isWellFormedFrame F = true ↔ 4 ≤ F.length ∧ countOf F ≤ 10 ∧ F.length = 4 + 4 * countOf F ∧
      F.getD (F.length - 1) 0 = xorFold (F.take (F.length - 1)) := by
  simp only [isWellFormedFrame, Bool.and_eq_true, decide_eq_true_eq, and_assoc]
  exact Iff.rfl

end Sys2Proof.Machine
end

