-- ==== Sys2Proof/Laws/Decode.lean ====
section
/-! SUPPORT. The laws of the decoder's tables. -/

namespace Sys2Proof

/-- What well-formedness says of a frame row. -/
theorem frameWellFormed_iff (n : Nat) (h : Header) (fv : List Word) (ck : Byte) :
    frameWellFormed n h fv ck = true ↔
      fv.length = n ∧ ck = Machine.xorFold (Machine.framePrefix h (BitVec.ofNat 8 n) ++ Machine.payloadBytes fv) := by
  simp [frameWellFormed, lanesMatch, checksumMatches]

/-- A count above ten has no frame row (rule R84). -/
theorem frameRow_illegal (n : Nat) (h : Config.maxFloats < n) : frameRow n = none := by
  simp only [Config.maxFloats] at h
  unfold frameRow
  split <;> first | rfl | omega

/-- A count of at most ten has one (rule R82). -/
theorem frameRow_legal (n : Nat) (h : n ≤ Config.maxFloats) : ∃ row, frameRow n = some row := by
  simp only [Config.maxFloats] at h
  interval_cases n <;> exact ⟨_, rfl⟩

/-- What `frameRow` gives is the constructor of that count: its encoding and its well-formedness. -/
theorem frameRow_spec (n : Nat) (row : Header → List Word → Byte → Instr) (hr : frameRow n = some row) (h : Header)
    (fv : List Word) (ck : Byte) :
    n ≤ Config.maxFloats ∧ encode (row h fv ck) = encodeFrame n h fv ck ∧
      wellFormed (row h fv ck) = frameWellFormed n h fv ck := by
  simp only [Config.maxFloats]
  unfold frameRow at hr
  split at hr <;> simp at hr <;> subst hr <;> exact ⟨by omega, rfl, rfl⟩

end Sys2Proof
end

