-- ==== Sys2Proof/Laws/PerInstr.lean ====
section
/-! SUPPORT. Statements about every instruction as syntax, one lemma per constructor. -/

namespace Sys2Proof.Laws.RoundTrip

/-- Decoding an encoded well-formed instruction gives it back (rules R88, R91, R98). -/
def Statement (i : Instr) : Prop := wellFormed i = true → decode (encode i) = .ok i

/-- The frame rows at once: a frame of count `n` comes back from its bytes. -/
theorem frame_roundTrip (n : Nat) (hn : n ≤ Config.maxFloats) (row : Header → List Word → Byte → Instr)
    (hrow : frameRow n = some row) (h : Header) (fv : List Word) (ck : Byte) (hw : frameWellFormed n h fv ck = true) :
    decode (encodeFrame n h fv ck) = .ok (row h fv ck) := by
  have hlen : fv.length = n := by
    simp only [frameWellFormed, lanesMatch, Bool.and_eq_true, decide_eq_true_eq] at hw
    exact hw.1
  have hmod : n % 2 ^ 8 = n := Nat.mod_eq_of_lt (by simp only [Config.maxFloats] at hn; omega)
  have hd : decodeArrival (Machine.wireBytes h (BitVec.ofNat 8 n) fv ck) = .ok (row h fv ck) := by
    subst hlen
    simp only [Machine.wireBytes, Machine.framePrefix, List.cons_append, List.nil_append, decodeArrival,
      BitVec.toNat_ofNat, hmod, hrow, List.length_append, Machine.payloadBytes_length, List.length_singleton,
      Config.bodyLength, Nat.lt_irrefl, if_false, Machine.headerOf_headerHi_headerLo,
      Machine.payloadWords_payloadBytes]
    simp
  simp [encodeFrame, decode, hd]

theorem opOpen (p : PortId) (b : BaudRate) (t : Millis) (tp : Int) (now : Int) : Statement (.opOpen p b t tp now) := fun _ => rfl

theorem opClose : Statement .opClose := fun _ => rfl

theorem opIsOpen : Statement .opIsOpen := fun _ => rfl

theorem opEncode (h : Header) (fv : List Word) : Statement (.opEncode h fv) := fun _ => rfl

theorem opSend (h : Header) (fv : List Word) : Statement (.opSend h fv) := fun _ => rfl

theorem opDecode : Statement .opDecode := fun _ => rfl

theorem opReceive (now : Int) : Statement (.opReceive now) := fun _ => rfl

theorem opDiscard : Statement .opDiscard := fun _ => rfl

theorem opOnFrameDecoded (now : Int) : Statement (.opOnFrameDecoded now) := fun _ => rfl

theorem opIsLive (now : Int) (tp : Int) : Statement (.opIsLive now tp) := fun _ => rfl

theorem opRearm : Statement .opRearm := fun _ => rfl

theorem opReadLs : Statement .opReadLs := fun _ => rfl

theorem reservedC : Statement .reservedC := fun _ => rfl

theorem reservedD : Statement .reservedD := fun _ => rfl

theorem reservedE : Statement .reservedE := fun _ => rfl

theorem reservedF : Statement .reservedF := fun _ => rfl

theorem pollRearm (now : Int) (period : Int) : Statement (.pollRearm now period) := fun _ => rfl

theorem frameN0 (h : Header) (fv : List Word) (ck : Byte) : Statement (.frameN0 h fv ck) :=
  frame_roundTrip 0 (by decide) _ rfl h fv ck

theorem frameN1 (h : Header) (fv : List Word) (ck : Byte) : Statement (.frameN1 h fv ck) :=
  frame_roundTrip 1 (by decide) _ rfl h fv ck

theorem frameN2 (h : Header) (fv : List Word) (ck : Byte) : Statement (.frameN2 h fv ck) :=
  frame_roundTrip 2 (by decide) _ rfl h fv ck

theorem frameN3 (h : Header) (fv : List Word) (ck : Byte) : Statement (.frameN3 h fv ck) :=
  frame_roundTrip 3 (by decide) _ rfl h fv ck

theorem frameN4 (h : Header) (fv : List Word) (ck : Byte) : Statement (.frameN4 h fv ck) :=
  frame_roundTrip 4 (by decide) _ rfl h fv ck

theorem frameN5 (h : Header) (fv : List Word) (ck : Byte) : Statement (.frameN5 h fv ck) :=
  frame_roundTrip 5 (by decide) _ rfl h fv ck

theorem frameN6 (h : Header) (fv : List Word) (ck : Byte) : Statement (.frameN6 h fv ck) :=
  frame_roundTrip 6 (by decide) _ rfl h fv ck

theorem frameN7 (h : Header) (fv : List Word) (ck : Byte) : Statement (.frameN7 h fv ck) :=
  frame_roundTrip 7 (by decide) _ rfl h fv ck

theorem frameN8 (h : Header) (fv : List Word) (ck : Byte) : Statement (.frameN8 h fv ck) :=
  frame_roundTrip 8 (by decide) _ rfl h fv ck

theorem frameN9 (h : Header) (fv : List Word) (ck : Byte) : Statement (.frameN9 h fv ck) :=
  frame_roundTrip 9 (by decide) _ rfl h fv ck

theorem frameN10 (h : Header) (fv : List Word) (ck : Byte) : Statement (.frameN10 h fv ck) :=
  frame_roundTrip 10 (by decide) _ rfl h fv ck

theorem frameIllegal (h : Header) (c : Byte) : Statement (.frameIllegal h c) := by
  intro hw
  have hrow : frameRow c.toNat = none := frameRow_illegal _ (of_decide_eq_true hw)
  simp [encode, decode, Machine.framePrefix, decodeArrival, hrow, Machine.headerOf_headerHi_headerLo]

end Sys2Proof.Laws.RoundTrip
end

