-- ==== Sys2Proof/Safety.lean ====
section
/-! DEFINITION. The terms claims are stated in: the invariant of the machine, and what an answer is. -/

namespace Sys2Proof.Machine

/-- `T.open` and `LS.isOpen` mirror the session (rules R23, R34). -/
def MirrorsTransport (s : State) : Prop :=
  s.tOpen = s.session.isSome ∧ ∀ x, s.session = some x → x.link.isOpen = true

/-- What a completion may be: a frame of at most ten lanes, well-formed frame bytes, an open LinkState, or a failure with
the `discard` flag its class admits (rules R29, R31, R112, R181). -/
def Completion.Legal : Completion → Prop
  | .ok (.frame _ fv) => fv.length ≤ Config.maxFloats
  | .ok (.bytes bs) => isWellFormedFrame bs = true
  | .ok (.linkState l) => l.isOpen = true
  | .ok _ => True
  | .err .tooManyValues _ => True
  | .err .incomplete d => d = false
  | .err .checksumMismatch d => d = true
  | .err .connectionError d => d = false

/-- What a Transport call may be: reads of a prefix or of a legal body, writes of one well-formed frame (rules R62, R116). -/
def TransportCall.Legal : TransportCall → Prop
  | .read n _ => n = Config.prefixLength ∨ ∃ k ≤ Config.maxFloats, n = Config.bodyLength k
  | .write bs => isWellFormedFrame bs = true
  | .openPort _ _ => True
  | .closePort => True
  | .discardInputBuffer => True

/-- The invariant of the machine. -/
structure StateInv (s : State) : Prop where
  mirror     : MirrorsTransport s
  completion : ∀ c, s.completion = some c → c.Legal
  calls      : ∀ c ∈ s.calls, TransportCall.Legal c

/-- The state in which the environment has these answers ready for the next calls. -/
def State.withAnswers (s : State) (opens : List Bool) (writes : List Nat) (reads : List Bytes) : State :=
  s.setEnv { s.env with openAnswers := opens, writeCounts := writes, readArrivals := reads }

/-- A run of SENDs, each answering a next state that completes with success (rule R116). -/
def SendsComplete : List (Header × List Word) → State → State → Prop
  | [], s, t => t = s
  | (h, fv) :: more, s, t =>
    ∃ u, exec (.opSend h fv) s = .next u ∧ u.completion = some (.ok .nothing) ∧ SendsComplete more u t

/-- The executed instruction is one that records a decoded frame at time `now`: an ON_FRAME_DECODED, or a RECEIVE whose
completion is a frame (rules R161, R170). -/
def RecordsFrame (i : Instr) (now : Int) (t : State) : Prop :=
  i = .opOnFrameDecoded now ∨ (i = .opReceive now ∧ ∃ h fv, t.completion = some (.ok (.frame h fv)))

/-- The executed instruction is the caller's re-arm, alone or inside its poll (rules R167, R169). -/
def Rearms (i : Instr) : Prop := i = .opRearm ∨ ∃ now period, i = .pollRearm now period

/-- A frame row: the instruction is an arrival, which completes no operation (rules R53, R80). -/
def IsFrameRow (i : Instr) : Prop := ∃ a, encode i = .arrival a

end Sys2Proof.Machine
end

