-- ==== Sys2Proof/Certificates/Slice0/Obligations.lean ====
section
/-! DEFINITION. The statements for the provers. Each docstring names the rule of the spec it formalises, or says that the
statement is about the model's own convention and names the log entry. -/

open Sys2Proof Sys2Proof.Machine

/-! ### Encodings -/

/-- Rules R88, R91, R98: decoding the encoding of any well-formed instruction gives it back. -/
def Obligations.DecodeOfEncodeIsIdentity : Prop :=
  ∀ i : Instr, wellFormed i = true → decode (encode i) = .ok i

/-- Rules R51, R80, R85: bytes that are read as a frame row are exactly that row's encoding; no bit is dropped. -/
def Obligations.EncodeOfDecodedArrivalIsIdentity : Prop :=
  ∀ (a : Bytes) (i : Instr), decode (.arrival a) = .ok i → encode i = .arrival a

/-- Rules R80, R84, R91, R92, R93, R98: the selector table, every operand from its own port, and the bytes of three frames
(scenario A, the shortest frame, an illegal prefix), written out from the spec. That requests and arrivals are what is decoded
is log entry 1; that the bytes of an arrival are a frame row, and FRAME_ILLEGAL exactly its three-byte prefix, is log
entry 4. -/
def Obligations.PresentedWordsDecode : Prop :=
  (∀ q : Ports,
    decode (.request ⟨0x0, q⟩) = .ok (.opOpen q.identifier q.baudRate q.readTimeoutMs q.timeoutPeriod q.now) ∧
    decode (.request ⟨0x1, q⟩) = .ok .opClose ∧ decode (.request ⟨0x2, q⟩) = .ok .opIsOpen ∧
    decode (.request ⟨0x3, q⟩) = .ok (.opEncode q.header q.floats) ∧
    decode (.request ⟨0x4, q⟩) = .ok (.opSend q.header q.floats) ∧
    decode (.request ⟨0x5, q⟩) = .ok .opDecode ∧ decode (.request ⟨0x6, q⟩) = .ok (.opReceive q.now) ∧
    decode (.request ⟨0x7, q⟩) = .ok .opDiscard ∧ decode (.request ⟨0x8, q⟩) = .ok (.opOnFrameDecoded q.now) ∧
    decode (.request ⟨0x9, q⟩) = .ok (.opIsLive q.now q.timeoutPeriod) ∧ decode (.request ⟨0xA, q⟩) = .ok .opRearm ∧
    decode (.request ⟨0xB, q⟩) = .ok .opReadLs ∧ decode (.request ⟨0xC, q⟩) = .ok .reservedC ∧
    decode (.request ⟨0xD, q⟩) = .ok .reservedD ∧ decode (.request ⟨0xE, q⟩) = .ok .reservedE ∧
    decode (.request ⟨0xF, q⟩) = .ok .reservedF) ∧
  decode (.arrival [0x00, 0x01, 0x01, 0x00, 0x00, 0x80, 0x3F, 0xBF]) = .ok (.frameN1 0x0001 [0x3F800000] 0xBF) ∧
  decode (.arrival [0x12, 0x34, 0x00, 0x26]) = .ok (.frameN0 0x1234 [] 0x26) ∧
  decode (.arrival [0x00, 0x01, 0x0B]) = .ok (.frameIllegal 0x0001 0x0B)

/-- Rule R51: the frame offset map, each byte as a number; nothing follows the checksum. -/
def Obligations.FrameOffsetMap : Prop :=
  ∀ (h : Header) (fv : List Word), fv.length ≤ 10 →
    (frame h fv).length = 4 + 4 * fv.length ∧
    ((frame h fv)[0]?).map BitVec.toNat = some (h.toNat / 256) ∧
    ((frame h fv)[1]?).map BitVec.toNat = some (h.toNat % 256) ∧
    ((frame h fv)[2]?).map BitVec.toNat = some fv.length ∧
    (∀ (k : Nat) (w : Word), fv[k]? = some w →
      ((frame h fv)[3 + 4 * k]?).map BitVec.toNat = some (w.toNat % 256) ∧
      ((frame h fv)[4 + 4 * k]?).map BitVec.toNat = some (w.toNat / 256 % 256) ∧
      ((frame h fv)[5 + 4 * k]?).map BitVec.toNat = some (w.toNat / 65536 % 256) ∧
      ((frame h fv)[6 + 4 * k]?).map BitVec.toNat = some (w.toNat / 16777216)) ∧
    (frame h fv)[3 + 4 * fv.length]? = some (xorFold ((frame h fv).take (3 + 4 * fv.length)))

/-- Rule R85: the operands are assembled by zero extension and placement alone, as numbers; the inverse placements are
those of `FrameOffsetMap`. The last clause is the model's own reading (log entries 1 and 4, from rules R80, R82, R84 and R98):
the decoder reads the bytes, presented as an arrival, as the row of their count, whatever the checksum byte is. -/
def Obligations.OperandsAssembledFromFrameBytes : Prop :=
  ∀ (F : Bytes), 4 ≤ F.length → countOf F ≤ 10 → F.length = 4 + 4 * countOf F →
    countOf F = (F.getD 2 0).toNat ∧
    (parseFrame F).1.toNat = (F.getD 0 0).toNat * 256 + (F.getD 1 0).toNat ∧
    (parseFrame F).2.length = countOf F ∧
    (∀ k < countOf F, (((parseFrame F).2[k]?).map BitVec.toNat) =
      some ((F.getD (3 + 4 * k) 0).toNat + (F.getD (4 + 4 * k) 0).toNat * 256 + (F.getD (5 + 4 * k) 0).toNat * 65536 +
        (F.getD (6 + 4 * k) 0).toNat * 16777216)) ∧
    ∃ row, frameRow (countOf F) = some row ∧
      decode (.arrival F) = .ok (row (parseFrame F).1 (parseFrame F).2 (F.getD (3 + 4 * countOf F) 0))

/-- Rule R86: the checksum is the exclusive OR of every byte before it; a frame of the right length is well-formed exactly
when all its bytes fold to zero. -/
def Obligations.ChecksumFoldsFrameToZero : Prop :=
  (∀ s : Bytes, xorFold s = s.foldl (fun x y => x ^^^ y) 0) ∧
  (∀ (h : Header) (fv : List Word), fv.length ≤ 10 →
    (frame h fv).getLast? = some (xorFold ((frame h fv).take (3 + 4 * fv.length))) ∧ xorFold (frame h fv) = 0) ∧
  ∀ F : Bytes, 4 ≤ F.length → countOf F ≤ 10 → F.length = 4 + 4 * countOf F →
    (isWellFormedFrame F = true ↔ xorFold F = 0)

/-- Rule R88: what a well-formed frame is, and that `frame` and `parse` are inverse to each other on legal pairs and
well-formed frames. -/
def Obligations.ParseAndFrameAreInverse : Prop :=
  (∀ F : Bytes, isWellFormedFrame F = true ↔
    ∃ c : Byte, F[2]? = some c ∧ c.toNat ≤ 10 ∧ F.length = 4 + 4 * c.toNat ∧ F.getLast? = some (xorFold F.dropLast)) ∧
  (∀ (h : Header) (fv : List Word), fv.length ≤ 10 →
    isWellFormedFrame (frame h fv) = true ∧ parseFrame (frame h fv) = (h, fv)) ∧
  (∀ F : Bytes, isWellFormedFrame F = true →
    (parseFrame F).2.length ≤ 10 ∧ frame (parseFrame F).1 (parseFrame F).2 = F) ∧
  ∀ F : Bytes, isWellFormedFrame F = true → ∃! p : Header × List Word, p.2.length ≤ 10 ∧ frame p.1 p.2 = F

/-! ### The step -/

/-- Rules R15, R64, R215 in the model's own terms (log entry 1): a step takes the next event, and executes the instruction
it decodes to. -/
def Obligations.StepRunsDecodedInstruction : Prop :=
  ∀ (s : State) (p : Presented) (rest : List Presented) (i : Instr), s.inbox = p :: rest → decode p = .ok i →
    step s = exec i { s with inbox := rest }

/-- Rule R53, in the model's own terms (log entry 1): every arrival, whether or not its bytes are a frame, appends its bytes
to `RX` and does nothing else. -/
def Obligations.StepOnArrivalAppendsToRx : Prop :=
  ∀ (s : State) (a : Bytes) (rest : List Presented), s.inbox = .arrival a :: rest →
    step s = .next { s with rx := s.rx ++ a, inbox := rest }

/-- Rules R210, R215, R196, R223, in the model's own terms (log entry 1): with no event to come nothing happens; two
overlapping requests are refused. -/
def Obligations.StepWithoutEventOrWithOverlap : Prop :=
  (∀ s : State, s.inbox = [] → step s = .next s) ∧
  ∀ (s : State) (q r : Request) (rest : List Presented), s.inbox = .overlapping q r :: rest →
    step s = .refused .overlappingOperations

/-! ### The stream primitives -/

/-- Rule R54: `RxRead(n)` returns the first `min(n, len)` bytes of what was buffered and what arrived, in order; a short
result leaves `RX` empty; with `n` bytes buffered the arrival does not matter; any arrival can be drawn. -/
def Obligations.RxReadContract : Prop :=
  ∀ (n : Nat) (tmo : Millis) (s : State), 1 ≤ n →
    rxReadBytes n s = (s.rx ++ readArrival s.env).take n ∧
    (rxReadBytes n s).length = min n (s.rx ++ readArrival s.env).length ∧
    rxReadBytes n s ++ (rxReadState n tmo s).rx = s.rx ++ readArrival s.env ∧
    ((rxReadBytes n s).length < n → (rxReadState n tmo s).rx = []) ∧
    (n ≤ s.rx.length → rxReadBytes n s = s.rx.take n) ∧
    rxReadState n tmo s =
      { s with rx := (s.rx ++ readArrival s.env).drop n, env := s.env.afterRead, calls := s.calls ++ [.read n tmo] } ∧
    ∀ (a : Bytes) (o : List Bool) (w : List Nat) (r : List Bytes),
      rxReadBytes n (s.withAnswers o w (a :: r)) = (s.rx ++ a).take n

/-- Rule R56: `TxWrite(bs)` returns a count between 0 and the length, appends that many leading bytes to `TX`, and any such
count can be drawn. -/
def Obligations.TxWriteContract : Prop :=
  ∀ (bs : Bytes) (s : State),
    txTaken bs s ≤ bs.length ∧
    txWriteState bs s =
      { s with tx := s.tx ++ bs.take (txTaken bs s), env := s.env.afterWrite, calls := s.calls ++ [.write bs] } ∧
    ∀ w ≤ bs.length, ∀ (o : List Bool) (ws : List Nat) (r : List Bytes), txTaken bs (s.withAnswers o (w :: ws) r) = w

/-- Rule R57: `RxDiscard()` empties `RX` and touches nothing else (the record of Transport calls aside, log entry 8); what
arrives after it stays; on an empty `RX` it changes nothing. -/
def Obligations.RxDiscardContract : Prop :=
  ∀ s : State,
    rxDiscard s = { s with rx := [], calls := s.calls ++ [.discardInputBuffer] } ∧
    (∀ a : Bytes, (arrive a (rxDiscard s)).rx = a) ∧
    (s.rx = [] → rxDiscard s = { s with calls := s.calls ++ [.discardInputBuffer] })

/-! ### ENCODE and SEND -/

/-- Rule R111: ENCODE's result, in every state; nothing but the completion (log entry 7) is written. -/
def Obligations.EncodeResult : Prop :=
  ∀ (h : Header) (fv : List Word) (s : State),
    decode (encodeRequest 0x3 { header := h, floats := fv }) = .ok (.opEncode h fv) ∧
    (10 < fv.length → exec (.opEncode h fv) s = .next { s with completion := some (.err .tooManyValues false) }) ∧
    (fv.length ≤ 10 → exec (.opEncode h fv) s = .next { s with completion := some (.ok (.bytes (frame h fv))) })

/-- Rule R112: what ENCODE guarantees of its result. -/
def Obligations.EncodeGuarantees : Prop :=
  ∀ (h : Header) (fv : List Word) (s : State), ∃ t c, exec (.opEncode h fv) s = .next t ∧ t.completion = some c ∧
    (∀ bs, c = .ok (.bytes bs) → isWellFormedFrame bs = true ∧ bs.length = 4 + 4 * fv.length ∧ 4 ≤ bs.length ∧
      bs.length ≤ 44 ∧ countOf bs = fv.length ∧ countOf bs ≤ 10 ∧ (parseFrame bs).2 = fv) ∧
    (fv.length ≤ 10 → ∃ bs, c = .ok (.bytes bs)) ∧
    (10 < fv.length → c = .err .tooManyValues false) ∧
    t.calls = s.calls ∧ t.env = s.env ∧ ∀ d, c ≠ .err .connectionError d

/-- Rule R114: SEND's result, its checks in their order; only `TX` is written (beside the model's own records, log entries
3, 7 and 8). -/
def Obligations.SendResult : Prop :=
  ∀ (h : Header) (fv : List Word) (s : State),
    decode (encodeRequest 0x4 { header := h, floats := fv }) = .ok (.opSend h fv) ∧
    (10 < fv.length → exec (.opSend h fv) s = .next { s with completion := some (.err .tooManyValues false) }) ∧
    (fv.length ≤ 10 → s.session = none →
      exec (.opSend h fv) s = .next { s with completion := some (.err .connectionError false) }) ∧
    (fv.length ≤ 10 → ∀ x w, s.session = some x → w = min (writeCount s.env) (4 + 4 * fv.length) →
      exec (.opSend h fv) s = .next
        { s with tx := s.tx ++ (frame h fv).take w, env := s.env.afterWrite, calls := s.calls ++ [.write (frame h fv)],
                 completion := some (if w = 4 + 4 * fv.length then .ok .nothing else .err .connectionError false) })

/-- Rules R114, R116: after a run of successful SENDs `TX` holds their frames in issue order with nothing between, each
frame written by a single call; the session and `RX` are untouched. -/
def Obligations.SendRunConcatenatesFrames : Prop :=
  ∀ (l : List (Header × List Word)) (s t : State), SendsComplete l s t →
    t.tx = s.tx ++ l.flatMap (fun p => frame p.1 p.2) ∧
    t.calls = s.calls ++ l.map (fun p => .write (frame p.1 p.2)) ∧
    t.session = s.session ∧ t.tOpen = s.tOpen ∧ t.rx = s.rx

/-! ### DECODE, RECEIVE, DISCARD -/

/-- Rules R121 and R127: DECODE's five steps in their order, and what each outcome consumes, leaves and reports; without a
session it is refused. -/
def Obligations.DecodeOutcomes : Prop :=
  decode (encodeRequest 0x5) = .ok .opDecode ∧
  (∀ s : State, s.session = none → exec .opDecode s = .refused .noSession) ∧
  ∀ (s : State) (x : Session), s.session = some x → ∃ t, exec .opDecode s = .next t ∧
    ((s.rx ++ readArrival s.env).length < 3 →
      t = { s with rx := [], env := s.env.afterRead, calls := s.calls ++ [.read 3 x.config.readTimeoutMs],
                   completion := some (.err .incomplete false) }) ∧
    (∀ (hi lo c : Byte) (more : Bytes), s.rx ++ readArrival s.env = hi :: lo :: c :: more →
      (10 < c.toNat →
        t = { s with rx := more, env := s.env.afterRead, calls := s.calls ++ [.read 3 x.config.readTimeoutMs],
                     completion := some (.err .tooManyValues true) }) ∧
      (c.toNat ≤ 10 → (more ++ readArrival s.env.afterRead).length < 4 * c.toNat + 1 →
        t = { s with rx := [], env := s.env.afterRead.afterRead,
                     calls := s.calls ++ [.read 3 x.config.readTimeoutMs,
                       .read (4 * c.toNat + 1) x.config.readTimeoutMs],
                     completion := some (.err .incomplete false) }) ∧
      (c.toNat ≤ 10 → ∀ (payload : Bytes) (ck : Byte) (rest : Bytes), payload.length = 4 * c.toNat →
        more ++ readArrival s.env.afterRead = payload ++ ck :: rest →
        t = { s with rx := rest, env := s.env.afterRead.afterRead,
                     calls := s.calls ++ [.read 3 x.config.readTimeoutMs,
                       .read (4 * c.toNat + 1) x.config.readTimeoutMs],
                     completion := some (if xorFold ([hi, lo, c] ++ payload) = ck
                       then .ok (.frame (headerOf hi lo) (payloadWords c.toNat payload))
                       else .err .checksumMismatch true) }))

/-- Rules R126, R132 (a), R135: with a whole frame at the head of `RX`, DECODE returns exactly that frame's operands, bit for
bit, whatever stands behind it and whatever arrives. -/
def Obligations.DecodeOfBufferedFrame : Prop :=
  ∀ (s : State) (x : Session) (h : Header) (fv : List Word) (rest : Bytes), s.session = some x → fv.length ≤ 10 →
    s.rx = frame h fv ++ rest →
    ∃ t, exec .opDecode s = .next t ∧ t.completion = some (.ok (.frame h fv)) ∧
      t.rx = rest ++ readArrival s.env ++ readArrival s.env.afterRead ∧ t.session = s.session ∧ t.tx = s.tx ∧
      t.tOpen = s.tOpen

/-- Rule R132 (c): a truncated frame with nothing more arriving gives `Incomplete`, and its bytes are gone. -/
def Obligations.TruncatedFrameIsIncomplete : Prop :=
  ∀ (s : State) (x : Session) (h : Header) (fv : List Word) (k : Nat), s.session = some x → fv.length ≤ 10 →
    k < 4 + 4 * fv.length → s.rx = (frame h fv).take k → readArrival s.env = [] → readArrival s.env.afterRead = [] →
    ∃ t, exec .opDecode s = .next t ∧ t.completion = some (.err .incomplete false) ∧ t.rx = [] ∧
      t.session = s.session ∧ t.tx = s.tx

/-- Rules R132 (d), R134: any corruption confined to one byte other than the count byte gives `ChecksumMismatch`, with the
whole frame consumed. -/
def Obligations.OneCorruptByteIsDetected : Prop :=
  ∀ (s : State) (x : Session) (h : Header) (fv : List Word) (j : Nat) (b : Byte) (rest : Bytes), s.session = some x →
    fv.length ≤ 10 → j < 4 + 4 * fv.length → j ≠ 2 → (frame h fv)[j]? ≠ some b →
    s.rx = (frame h fv).set j b ++ rest →
    ∃ t, exec .opDecode s = .next t ∧ t.completion = some (.err .checksumMismatch true) ∧
      t.rx = rest ++ readArrival s.env ++ readArrival s.env.afterRead ∧ t.session = s.session

/-- Rule R133: what a corrupted count byte of a well-formed frame leads to, with nothing else in `RX` and nothing
arriving: `TooManyValues`, `Incomplete`, or a shorter parse that fails its checksum or falsely succeeds. -/
def Obligations.CorruptCountByteOutcomes : Prop :=
  ∀ (s : State) (x : Session) (h : Header) (fv : List Word) (c : Byte), s.session = some x → fv.length ≤ 10 →
    s.rx = (frame h fv).set 2 c → readArrival s.env = [] → readArrival s.env.afterRead = [] →
    ∃ t, exec .opDecode s = .next t ∧
      (10 < c.toNat → t.completion = some (.err .tooManyValues true) ∧ t.rx = (frame h fv).drop 3) ∧
      (fv.length < c.toNat → c.toNat ≤ 10 → t.completion = some (.err .incomplete false) ∧ t.rx = []) ∧
      (c.toNat < fv.length → t.rx = (frame h fv).drop (4 + 4 * c.toNat) ∧
        t.completion = some (if (frame h fv)[3 + 4 * c.toNat]? = some (xorFold (((frame h fv).set 2 c).take (3 + 4 * c.toNat)))
          then .ok (.frame h (fv.take c.toNat)) else .err .checksumMismatch true))

/-- Rule R134: with the count unchanged, a corrupted frame is well-formed again exactly when the error patterns of its bytes
fold to zero. -/
def Obligations.CorruptionUndetectedIffErrorsCancel : Prop :=
  ∀ F G : Bytes, isWellFormedFrame F = true → G.length = F.length → G[2]? = F[2]? →
    (isWellFormedFrame G = true ↔ xorFold (List.zipWith (fun x y => x ^^^ y) F G) = 0)

/-- Rule R128: RECEIVE is DECODE, then ON_FRAME_DECODED on success, DISCARD on a failure that demands it, nothing
otherwise; the completion is DECODE's; without a session it is refused. -/
def Obligations.ReceiveIsDecodeThenUpdateOrDiscard : Prop :=
  ∀ (now : Int) (s : State),
    decode (encodeRequest 0x6 { now := now }) = .ok (.opReceive now) ∧
    (s.session = none → exec (.opReceive now) s = .refused .noSession) ∧
    (∀ x, s.session = some x → ∃ t c, exec .opDecode s = .next t ∧ t.completion = some c ∧
      ((∃ h fv, c = .ok (.frame h fv) ∧ ∃ u, exec (.opOnFrameDecoded now) t = .next u ∧
          exec (.opReceive now) s = .next { u with completion := some c }) ∨
        ((c = .err .tooManyValues true ∨ c = .err .checksumMismatch true) ∧ ∃ u, exec .opDiscard t = .next u ∧
          exec (.opReceive now) s = .next { u with completion := some c }) ∨
        (c = .err .incomplete false ∧ exec (.opReceive now) s = .next t)))

/-- Rule R130: RECEIVE writes the liveness fields on success only, and then unconditionally. -/
def Obligations.ReceiveWritesLivenessOnSuccessOnly : Prop :=
  ∀ (now : Int) (s : State) (x : Session), s.session = some x → ∃ t c, exec (.opReceive now) s = .next t ∧
    t.completion = some c ∧
    (∀ e d, c = .err e d → t.session = s.session) ∧
    (∀ v, c = .ok v → t.session =
      some { x with link := { x.link with timeoutFlag := false, lastLiveAt := now } })

/-- Rules R120, R129, R184: after a RECEIVE that fails `RX` is empty, by the discard or because the read was short; the frame
of RECEIVE: `TX`, the endpoint and the configuration are untouched. -/
def Obligations.FailedReceiveEmptiesRx : Prop :=
  ∀ (now : Int) (s : State) (x : Session), s.session = some x → ∃ t c, exec (.opReceive now) s = .next t ∧
    t.completion = some c ∧ (∀ e d, c = .err e d → t.rx = []) ∧
    (c.discard = true → t.calls.getLast? = some .discardInputBuffer) ∧
    t.tx = s.tx ∧ t.tOpen = s.tOpen ∧ t.cfg = s.cfg ∧ t.inbox = s.inbox ∧
    t.env.openAnswers = s.env.openAnswers ∧ t.env.writeCounts = s.env.writeCounts

/-- Rule R131: DISCARD. -/
def Obligations.DiscardResult : Prop :=
  decode (encodeRequest 0x7) = .ok .opDiscard ∧
  ∀ s : State,
    (s.session = none → exec .opDiscard s = .refused .noSession) ∧
    (∀ x, s.session = some x → exec .opDiscard s = .next
      { s with rx := [], calls := s.calls ++ [.discardInputBuffer], completion := some (.ok .nothing) })

/-! ### The session -/

/-- Rule R145: OPEN. -/
def Obligations.OpenResult : Prop :=
  ∀ (p : PortId) (b : BaudRate) (tmo : Millis) (tp : Int) (now : Int) (s : State),
    decode (encodeRequest 0x0 { identifier := p, baudRate := b, readTimeoutMs := tmo, timeoutPeriod := tp, now := now }) =
      .ok (.opOpen p b tmo tp now) ∧
    (∀ x, s.session = some x → exec (.opOpen p b tmo tp now) s = .refused .sessionExists) ∧
    (s.session = none → openAnswer s.env = true → exec (.opOpen p b tmo tp now) s = .next
      { s with session := some { link := { isOpen := true, timeoutFlag := true, lastLiveAt := now, timeoutPeriod := tp },
                                 config := { portId := p, baudRate := b, readTimeoutMs := tmo } },
               tOpen := true, tx := [], env := s.env.afterOpen, calls := s.calls ++ [.openPort p b],
               completion := some (.ok .nothing) }) ∧
    (s.session = none → openAnswer s.env = false → exec (.opOpen p b tmo tp now) s = .next
      { s with env := s.env.afterOpen, calls := s.calls ++ [.openPort p b],
               completion := some (.err .connectionError false) })

/-- Rule R147: CLOSE; after it every operation that needs a session is refused, and the next OPEN that succeeds starts with
the flag set whatever it was before. -/
def Obligations.CloseResult : Prop :=
  decode (encodeRequest 0x1) = .ok .opClose ∧
  ∀ s : State,
    (s.session = none → exec .opClose s = .next { s with completion := some (.ok .nothing) }) ∧
    (∀ x, s.session = some x → exec .opClose s = .next
      { s with session := none, tOpen := false, calls := s.calls ++ [.closePort], completion := some (.ok .nothing) }) ∧
    ∃ t, exec .opClose s = .next t ∧
      (∀ now tp : Int, exec .opDecode t = .refused .noSession ∧ exec (.opReceive now) t = .refused .noSession ∧
        exec .opDiscard t = .refused .noSession ∧ exec (.opOnFrameDecoded now) t = .refused .noSession ∧
        exec (.opIsLive now tp) t = .refused .noSession ∧ exec .opRearm t = .refused .noSession ∧
        exec .opReadLs t = .refused .noSession) ∧
      (∃ v, exec .opIsOpen t = .next v ∧ v.completion = some (.ok (.bool false))) ∧
      ∀ (p : PortId) (b : BaudRate) (tmo : Millis) (tp now : Int), openAnswer t.env = true →
        ∃ u x, exec (.opOpen p b tmo tp now) t = .next u ∧ u.session = some x ∧ x.link.timeoutFlag = true

/-- Rule R149: IS_OPEN, in every state whose `isOpen` mirrors the session (the invariant of `StepKeepsInvariant`). -/
def Obligations.IsOpenResult : Prop :=
  decode (encodeRequest 0x2) = .ok .opIsOpen ∧
  ∀ s : State, MirrorsTransport s →
    exec .opIsOpen s = .next { s with completion := some (.ok (.bool s.session.isSome)) }

/-- Rule R151: READ_LS. -/
def Obligations.ReadLsResult : Prop :=
  decode (encodeRequest 0xB) = .ok .opReadLs ∧
  ∀ s : State,
    (s.session = none → exec .opReadLs s = .refused .noSession) ∧
    (∀ x, s.session = some x → exec .opReadLs s = .next { s with completion := some (.ok (.linkState
      { isOpen := x.link.isOpen, timeoutFlag := x.link.timeoutFlag, lastLiveAt := x.link.lastLiveAt,
        timeoutPeriod := x.link.timeoutPeriod })) })

/-- Rule R148: nothing survives a session: after CLOSE and a further OPEN with the same answer, two blocks agree on the
session, the endpoint and, when the open succeeded, on `TX`, however different they were before. -/
def Obligations.NothingSurvivesASession : Prop :=
  ∀ (p : PortId) (b : BaudRate) (tmo : Millis) (tp : Int) (now : Int) (s s' t t' : State),
    exec .opClose s = .next t → exec .opClose s' = .next t' → MirrorsTransport s → MirrorsTransport s' →
    openAnswer s.env = openAnswer s'.env →
    ∃ u u', exec (.opOpen p b tmo tp now) t = .next u ∧ exec (.opOpen p b tmo tp now) t' = .next u' ∧
      u.session = u'.session ∧ u.tOpen = u'.tOpen ∧ u.completion = u'.completion ∧
      (openAnswer s.env = true → u.tx = [] ∧ u'.tx = [])

/-! ### Liveness -/

/-- Rule R161: ON_FRAME_DECODED. -/
def Obligations.OnFrameDecodedResult : Prop :=
  ∀ (now : Int) (s : State),
    decode (encodeRequest 0x8 { now := now }) = .ok (.opOnFrameDecoded now) ∧
    (s.session = none → exec (.opOnFrameDecoded now) s = .refused .noSession) ∧
    (∀ x, s.session = some x → exec (.opOnFrameDecoded now) s = .next
      { s with session := some { x with link := { x.link with timeoutFlag := false, lastLiveAt := now } },
               completion := some (.ok .nothing) })

/-- Rules R163, R164: IS_LIVE answers the comparator's formula on the integers, with its own period operand, and writes
nothing. -/
def Obligations.IsLiveResult : Prop :=
  ∀ (now : Int) (tp : Int) (s : State),
    decode (encodeRequest 0x9 { now := now, timeoutPeriod := tp }) = .ok (.opIsLive now tp) ∧
    (s.session = none → exec (.opIsLive now tp) s = .refused .noSession) ∧
    (∀ x, s.session = some x → ∃ b : Bool,
      exec (.opIsLive now tp) s = .next { s with completion := some (.ok (.bool b)) } ∧
      (b = true ↔ x.link.timeoutFlag = false ∧ now - x.link.lastLiveAt < tp))

/-- Rule R165: the outcomes of IS_LIVE by the flag and the comparison; and the link is not live straight after OPEN, whatever
the time and the period. -/
def Obligations.IsLiveOutcomes : Prop :=
  (∀ (now : Int) (tp : Int) (s : State) (x : Session), s.session = some x →
    ∃ t, exec (.opIsLive now tp) s = .next t ∧
      (x.link.timeoutFlag = true → t.completion = some (.ok (.bool false))) ∧
      (x.link.timeoutFlag = false →
        (now - x.link.lastLiveAt < tp → t.completion = some (.ok (.bool true))) ∧
        (now - x.link.lastLiveAt = tp → t.completion = some (.ok (.bool false))) ∧
        (now - x.link.lastLiveAt > tp → t.completion = some (.ok (.bool false))))) ∧
  ∀ (p : PortId) (b : BaudRate) (tmo : Millis) (tp : Int) (start : Int) (s : State), s.session = none →
    openAnswer s.env = true → ∃ t, exec (.opOpen p b tmo tp start) s = .next t ∧
      ∀ (now : Int) (period : Int), ∃ u, exec (.opIsLive now period) t = .next u ∧
        u.completion = some (.ok (.bool false))

/-- Rule R167: REARM, unconditional; the link is not live after it, whatever the time and the period. -/
def Obligations.RearmResult : Prop :=
  decode (encodeRequest 0xA) = .ok .opRearm ∧
  ∀ s : State,
    (s.session = none → exec .opRearm s = .refused .noSession) ∧
    (∀ x, s.session = some x → exec .opRearm s = .next
      { s with session := some { x with link := { x.link with timeoutFlag := true } },
               completion := some (.ok .nothing) }) ∧
    (∀ x, s.session = some x → x.link.timeoutFlag = true →
      exec .opRearm s = .next { s with completion := some (.ok .nothing) }) ∧
    (∀ t, exec .opRearm s = .next t → ∀ now period : Int, ∃ u, exec (.opIsLive now period) t = .next u ∧
      u.completion = some (.ok (.bool false)))

/-- Rules R97, R169: POLL_REARM's effect. That it is refused without a session, as its READ_LS is, is deduced from rules
R151, R187 and R196 (log entry 13); that the completion left is the last request's is the model's own (log entry 7). -/
def Obligations.PollRearmResult : Prop :=
  ∀ (now : Int) (period : Int) (s : State),
    (s.session = none → exec (.pollRearm now period) s = .refused .noSession) ∧
    (∀ x, s.session = some x →
      (now - x.link.lastLiveAt > period → exec (.pollRearm now period) s = .next
        { s with session := some { x with link := { x.link with timeoutFlag := true } },
                 completion := some (.ok .nothing) }) ∧
      (now - x.link.lastLiveAt ≤ period → exec (.pollRearm now period) s = .next
        { s with completion := some (.ok (.linkState x.link)) }))

/-- Rule R169: POLL_REARM is READ_LS followed, when the condition on what it returned holds, by REARM; at equality the poll
does not re-arm while IS_LIVE is already false, and with the flag clear the two agree at every other value. -/
def Obligations.PollRearmIsReadThenRearm : Prop :=
  ∀ (now : Int) (period : Int) (s u : State) (l : LinkState), exec .opReadLs s = .next u →
    u.completion = some (.ok (.linkState l)) →
    exec (.pollRearm now period) s = (if now - l.lastLiveAt > period then exec .opRearm u else .next u) ∧
    ∃ v b, exec (.opIsLive now period) s = .next v ∧ v.completion = some (.ok (.bool b)) ∧
      (now - l.lastLiveAt = period → b = false ∧ exec (.pollRearm now period) s = .next u) ∧
      (now - l.lastLiveAt ≠ period → l.timeoutFlag = false → (b = false ↔ now - l.lastLiveAt > period))

/-! ### Refusals, failures, reset -/

/-- Rule R196: what is refused, and the four operations that have a meaning without a session. -/
def Obligations.RefusalsWithoutSession : Prop :=
  (∀ (s : State) (now : Int) (tp : Int), s.session = none →
    exec .opDecode s = .refused .noSession ∧ exec (.opReceive now) s = .refused .noSession ∧
    exec .opDiscard s = .refused .noSession ∧ exec (.opOnFrameDecoded now) s = .refused .noSession ∧
    exec (.opIsLive now tp) s = .refused .noSession ∧ exec .opRearm s = .refused .noSession ∧
    exec .opReadLs s = .refused .noSession) ∧
  (∀ (s : State) (x : Session) (p : PortId) (b : BaudRate) (tmo : Millis) (tp : Int) (now : Int),
    s.session = some x → exec (.opOpen p b tmo tp now) s = .refused .sessionExists) ∧
  (∀ (s : State) (sel : Selector) (q : Ports) (rest : List Presented), 12 ≤ sel.toNat →
    s.inbox = .request ⟨sel, q⟩ :: rest → step s = .refused (.reservedSelector sel)) ∧
  (∀ (s : State) (q r : Request) (rest : List Presented), s.inbox = .overlapping q r :: rest →
    step s = .refused .overlappingOperations) ∧
  ∀ (s : State) (h : Header) (fv : List Word), s.session = none → fv.length ≤ 10 →
    exec (.opSend h fv) s = .next { s with completion := some (.err .connectionError false) } ∧
    exec .opClose s = .next { s with completion := some (.ok .nothing) } ∧
    exec .opIsOpen s = .next { s with completion := some (.ok (.bool false)) } ∧
    exec (.opEncode h fv) s = .next { s with completion := some (.ok (.bytes (frame h fv))) }

/-- Rule R92: the four reserved selectors are refused in every state, whatever stands on the ports, and answer no next
state. -/
def Obligations.ReservedSelectorsRefused : Prop :=
  ∀ s : State, exec .reservedC s = .refused (.reservedSelector 0xC) ∧
    exec .reservedD s = .refused (.reservedSelector 0xD) ∧ exec .reservedE s = .refused (.reservedSelector 0xE) ∧
    exec .reservedF s = .refused (.reservedSelector 0xF) ∧
    ∀ (q : Ports) (sel : Selector), 12 ≤ sel.toNat → ∀ (rest : List Presented) (t : State),
      step { s with inbox := .request ⟨sel, q⟩ :: rest } ≠ .next t

/-- Rules R31, R94: the status and the `discard` bit, by operation: every operation that is not refused completes with one
of the five statuses, each returned only by the operations the table names. -/
def Obligations.StatusAndDiscardByOperation : Prop :=
  ∀ (i : Instr) (s t : State), ¬ IsFrameRow i → exec i s = .next t → ∃ c, t.completion = some c ∧
    (c.status = 0 ↔ ∃ v, c = .ok v) ∧ (c.status = 1 ↔ ∃ d, c = .err .tooManyValues d) ∧
    (c.status = 2 ↔ ∃ d, c = .err .incomplete d) ∧ (c.status = 3 ↔ ∃ d, c = .err .checksumMismatch d) ∧
    (c.status = 4 ↔ ∃ d, c = .err .connectionError d) ∧ c.status ≤ 4 ∧
    (c.status = 1 → (∃ h fv, i = .opEncode h fv) ∨ (∃ h fv, i = .opSend h fv) ∨ i = .opDecode ∨ ∃ now, i = .opReceive now) ∧
    (c.status = 2 ∨ c.status = 3 → i = .opDecode ∨ ∃ now, i = .opReceive now) ∧
    (c.status = 4 → (∃ p b tmo tp now, i = .opOpen p b tmo tp now) ∨ ∃ h fv, i = .opSend h fv) ∧
    (c.discard = true ↔ (i = .opDecode ∨ ∃ now, i = .opReceive now) ∧ (c.status = 1 ∨ c.status = 3))

/-- Rules R143, R182: after any failure the session and the endpoint stay as they were. -/
def Obligations.FailureKeepsSession : Prop :=
  ∀ (i : Instr) (s t : State) (e : Failure) (d : Bool), exec i s = .next t → t.completion = some (.err e d) →
    t.session = s.session ∧ t.tOpen = s.tOpen

/-- Rules R188, R190: no failure is sticky. What an operation does, and what it answers, does not depend on the completion
of the last one (a field of the model's own, log entry 7). -/
def Obligations.OutcomeIndependentOfLastCompletion : Prop :=
  ∀ (i : Instr) (s t : State) (c : Option Completion), exec i s = .next t →
    ∃ u, exec i { s with completion := c } = .next u ∧ { u with completion := t.completion } = t ∧
      (¬ IsFrameRow i → u = t) ∧ (IsFrameRow i → u.completion = c)

/-- Rules R37, R210: the state after reset: no session and no configuration, the endpoint closed, `TX` empty, no result, IS_OPEN
false. Of `RX` nothing is said. -/
def Obligations.ResetState : Prop :=
  State.reset.ls = none ∧ State.reset.cfg = none ∧ State.reset.tOpen = false ∧ State.reset.tx = [] ∧
    State.reset.completion = none ∧
    ∃ t, exec .opIsOpen State.reset = .next t ∧ t.completion = some (.ok (.bool false))

/-! ### Rules about the whole machine -/

/-- The invariant (rules R23, R29, R31, R34, R62, R112, R116) holds at reset. -/
def Obligations.ResetMeetsInvariant : Prop := StateInv State.reset

/-- The invariant (rules R23, R29, R31, R34, R62, R112, R116) is kept by every step. -/
def Obligations.StepKeepsInvariant : Prop := ∀ s t : State, StateInv s → step s = .next t → StateInv t

/-- Rule R170: the life of `timeoutFlag` and of `lastLiveAt`: set at OPEN, cleared with a new time by a recorded frame, set
again by the caller's re-arm, left alone by everything else, ended by CLOSE. -/
def Obligations.LifeOfTheTimeoutFlag : Prop :=
  ∀ (i : Instr) (s t : State), exec i s = .next t →
    (∀ y, s.session = none → t.session = some y →
      ∃ p b tmo tp now, i = .opOpen p b tmo tp now ∧ y.link.timeoutFlag = true ∧ y.link.lastLiveAt = now) ∧
    (∀ x, s.session = some x → (t.session = none ↔ i = .opClose)) ∧
    ∀ x y, s.session = some x → t.session = some y →
      (∀ now, RecordsFrame i now t → y.link.timeoutFlag = false ∧ y.link.lastLiveAt = now) ∧
      (x.link.timeoutFlag = true → y.link.timeoutFlag = false → ∃ now, RecordsFrame i now t) ∧
      (x.link.timeoutFlag = false → y.link.timeoutFlag = true → Rearms i) ∧
      (y.link.lastLiveAt ≠ x.link.lastLiveAt → ∃ now, RecordsFrame i now t) ∧
      (i = .opRearm → y.link.timeoutFlag = true)

/-- Rules R23, R26, R27, R34: within a session `isOpen`, the period and the configuration never change; the endpoint changes
at OPEN and CLOSE only. -/
def Obligations.SessionConstants : Prop :=
  ∀ (i : Instr) (s t : State), exec i s = .next t →
    (∀ x y, s.session = some x → t.session = some y →
      y.link.isOpen = x.link.isOpen ∧ y.link.timeoutPeriod = x.link.timeoutPeriod ∧ y.config = x.config) ∧
    (t.tOpen ≠ s.tOpen → i = .opClose ∨ ∃ p b tmo tp now, i = .opOpen p b tmo tp now)

/-- Rules R50, R52: which instructions touch `RX` and `TX`. -/
def Obligations.WhoTouchesTheStreams : Prop :=
  ∀ (i : Instr) (s t : State), exec i s = .next t →
    (t.rx ≠ s.rx → i = .opDecode ∨ (∃ now, i = .opReceive now) ∨ i = .opDiscard ∨ IsFrameRow i) ∧
    (t.tx ≠ s.tx → (∃ h fv, i = .opSend h fv) ∨ ((∃ p b tmo tp now, i = .opOpen p b tmo tp now) ∧ t.tx = [])) ∧
    t.inbox = s.inbox

/-- Rules R62, R116, R143, R150: the Transport calls of each operation: at most the two reads of a decode, each with the
session's read timeout, one write of a whole frame, no retry, nothing opened or closed on its own. -/
def Obligations.TransportCallsByOperation : Prop :=
  ∀ (i : Instr) (s t : State), exec i s = .next t → ∃ new, t.calls = s.calls ++ new ∧
    (new = [] ∨
      (∃ p b tmo tp now, i = .opOpen p b tmo tp now ∧ new = [.openPort p b]) ∨
      (i = .opClose ∧ new = [.closePort]) ∨
      (∃ h fv, i = .opSend h fv ∧ fv.length ≤ 10 ∧ new = [.write (frame h fv)]) ∨
      (i = .opDiscard ∧ new = [.discardInputBuffer]) ∨
      ∃ x, s.session = some x ∧ (i = .opDecode ∨ ∃ now, i = .opReceive now) ∧
        ∃ reads tail, new = reads ++ tail ∧ (tail = [] ∨ (tail = [.discardInputBuffer] ∧ i ≠ .opDecode)) ∧
          (reads = [.read 3 x.config.readTimeoutMs] ∨
            ∃ k ≤ 10, reads = [.read 3 x.config.readTimeoutMs, .read (4 * k + 1) x.config.readTimeoutMs]))

/-- Rule R65: the two paths are independent: a SEND and a RECEIVE may be issued in either order, and leave the same session,
streams and environment, each with the same completion. -/
def Obligations.SendAndReceiveCommute : Prop :=
  ∀ (h : Header) (fv : List Word) (now : Int) (s : State) (x : Session), s.session = some x →
    ∃ u v u' v', exec (.opSend h fv) s = .next u ∧ exec (.opReceive now) u = .next v ∧
      exec (.opReceive now) s = .next u' ∧ exec (.opSend h fv) u' = .next v' ∧
      v.session = v'.session ∧ v.tOpen = v'.tOpen ∧ v.rx = v'.rx ∧ v.tx = v'.tx ∧ v.env = v'.env ∧
      u.completion = v'.completion ∧ v.completion = u'.completion ∧ u.rx = s.rx ∧ u.session = s.session ∧ u'.tx = s.tx

/-! ### The frame rows -/

/-- Rules R53, R80, R84 with log entry 4 (that a frame row is an arrival is the model's reading): FRAME_N0 to FRAME_N10 and
FRAME_ILLEGAL append their bytes to `RX` in every state and change nothing else. -/
def Obligations.FrameRowsArrive : Prop :=
  (∀ (h : Header) (fv : List Word) (ck : Byte) (s : State) (arrived : Nat → Answer),
    (∀ n, arrived n =
      .next { s with rx := s.rx ++ [headerHi h, headerLo h, BitVec.ofNat 8 n] ++ payloadBytes fv ++ [ck] }) →
    exec (.frameN0 h fv ck) s = arrived 0 ∧
    exec (.frameN1 h fv ck) s = arrived 1 ∧
    exec (.frameN2 h fv ck) s = arrived 2 ∧
    exec (.frameN3 h fv ck) s = arrived 3 ∧
    exec (.frameN4 h fv ck) s = arrived 4 ∧
    exec (.frameN5 h fv ck) s = arrived 5 ∧
    exec (.frameN6 h fv ck) s = arrived 6 ∧
    exec (.frameN7 h fv ck) s = arrived 7 ∧
    exec (.frameN8 h fv ck) s = arrived 8 ∧
    exec (.frameN9 h fv ck) s = arrived 9 ∧
    exec (.frameN10 h fv ck) s = arrived 10) ∧
  ∀ (h : Header) (c : Byte) (s : State),
    exec (.frameIllegal h c) s = .next { s with rx := s.rx ++ [headerHi h, headerLo h, c] }

/-- Rules R84, R86, R120 with log entry 4: a frame that arrives on an empty `RX` decodes to its own operands when its
checksum is right and is a `ChecksumMismatch` otherwise; an illegal prefix is `TooManyValues` with one read issued. -/
def Obligations.ArrivedFrameDecodes : Prop :=
  (∀ (n : Nat) (row : Header → List Word → Byte → Instr) (h : Header) (fv : List Word) (ck : Byte) (s : State) (x : Session),
    frameRow n = some row → fv.length = n → s.session = some x → s.rx = [] →
    ∃ t u, exec (row h fv ck) s = .next t ∧ exec .opDecode t = .next u ∧
      u.completion = some (if wellFormed (row h fv ck) = true then .ok (.frame h fv) else .err .checksumMismatch true)) ∧
  ∀ (h : Header) (c : Byte) (s : State) (x : Session), 10 < c.toNat → s.session = some x → s.rx = [] →
    ∃ t u, exec (.frameIllegal h c) s = .next t ∧ exec .opDecode t = .next u ∧
      u.completion = some (.err .tooManyValues true) ∧ u.calls = s.calls ++ [.read 3 x.config.readTimeoutMs]
end

