-- ==== Sys2Proof/Laws/State.lean ====
section
/-! SUPPORT. The small lemmas of the plain state updates: what each field holds after each update. -/

namespace Sys2Proof.Machine

@[simp] theorem State.complete_session (s : State) (c : Completion) : (s.complete c).session = s.session := rfl
@[simp] theorem State.complete_tOpen (s : State) (c : Completion) : (s.complete c).tOpen = s.tOpen := rfl
@[simp] theorem State.complete_rx (s : State) (c : Completion) : (s.complete c).rx = s.rx := rfl
@[simp] theorem State.complete_tx (s : State) (c : Completion) : (s.complete c).tx = s.tx := rfl
@[simp] theorem State.complete_completion (s : State) (c : Completion) : (s.complete c).completion = some c := rfl
@[simp] theorem State.complete_calls (s : State) (c : Completion) : (s.complete c).calls = s.calls := rfl
@[simp] theorem State.complete_env (s : State) (c : Completion) : (s.complete c).env = s.env := rfl
@[simp] theorem State.complete_inbox (s : State) (c : Completion) : (s.complete c).inbox = s.inbox := rfl

@[simp] theorem State.setRx_session (s : State) (bs : Bytes) : (s.setRx bs).session = s.session := rfl
@[simp] theorem State.setRx_tOpen (s : State) (bs : Bytes) : (s.setRx bs).tOpen = s.tOpen := rfl
@[simp] theorem State.setRx_rx (s : State) (bs : Bytes) : (s.setRx bs).rx = bs := rfl
@[simp] theorem State.setRx_tx (s : State) (bs : Bytes) : (s.setRx bs).tx = s.tx := rfl
@[simp] theorem State.setRx_completion (s : State) (bs : Bytes) : (s.setRx bs).completion = s.completion := rfl
@[simp] theorem State.setRx_calls (s : State) (bs : Bytes) : (s.setRx bs).calls = s.calls := rfl
@[simp] theorem State.setRx_env (s : State) (bs : Bytes) : (s.setRx bs).env = s.env := rfl
@[simp] theorem State.setRx_inbox (s : State) (bs : Bytes) : (s.setRx bs).inbox = s.inbox := rfl

@[simp] theorem State.setTx_session (s : State) (bs : Bytes) : (s.setTx bs).session = s.session := rfl
@[simp] theorem State.setTx_tOpen (s : State) (bs : Bytes) : (s.setTx bs).tOpen = s.tOpen := rfl
@[simp] theorem State.setTx_rx (s : State) (bs : Bytes) : (s.setTx bs).rx = s.rx := rfl
@[simp] theorem State.setTx_tx (s : State) (bs : Bytes) : (s.setTx bs).tx = bs := rfl
@[simp] theorem State.setTx_completion (s : State) (bs : Bytes) : (s.setTx bs).completion = s.completion := rfl
@[simp] theorem State.setTx_calls (s : State) (bs : Bytes) : (s.setTx bs).calls = s.calls := rfl
@[simp] theorem State.setTx_env (s : State) (bs : Bytes) : (s.setTx bs).env = s.env := rfl
@[simp] theorem State.setTx_inbox (s : State) (bs : Bytes) : (s.setTx bs).inbox = s.inbox := rfl

@[simp] theorem State.setSession_session (s : State) (x : Option Session) : (s.setSession x).session = x := rfl
@[simp] theorem State.setSession_tOpen (s : State) (x : Option Session) : (s.setSession x).tOpen = s.tOpen := rfl
@[simp] theorem State.setSession_rx (s : State) (x : Option Session) : (s.setSession x).rx = s.rx := rfl
@[simp] theorem State.setSession_tx (s : State) (x : Option Session) : (s.setSession x).tx = s.tx := rfl
@[simp] theorem State.setSession_completion (s : State) (x : Option Session) : (s.setSession x).completion = s.completion := rfl
@[simp] theorem State.setSession_calls (s : State) (x : Option Session) : (s.setSession x).calls = s.calls := rfl
@[simp] theorem State.setSession_env (s : State) (x : Option Session) : (s.setSession x).env = s.env := rfl
@[simp] theorem State.setSession_inbox (s : State) (x : Option Session) : (s.setSession x).inbox = s.inbox := rfl

@[simp] theorem State.setTOpen_session (s : State) (b : Bool) : (s.setTOpen b).session = s.session := rfl
@[simp] theorem State.setTOpen_tOpen (s : State) (b : Bool) : (s.setTOpen b).tOpen = b := rfl
@[simp] theorem State.setTOpen_rx (s : State) (b : Bool) : (s.setTOpen b).rx = s.rx := rfl
@[simp] theorem State.setTOpen_tx (s : State) (b : Bool) : (s.setTOpen b).tx = s.tx := rfl
@[simp] theorem State.setTOpen_completion (s : State) (b : Bool) : (s.setTOpen b).completion = s.completion := rfl
@[simp] theorem State.setTOpen_calls (s : State) (b : Bool) : (s.setTOpen b).calls = s.calls := rfl
@[simp] theorem State.setTOpen_env (s : State) (b : Bool) : (s.setTOpen b).env = s.env := rfl
@[simp] theorem State.setTOpen_inbox (s : State) (b : Bool) : (s.setTOpen b).inbox = s.inbox := rfl

@[simp] theorem State.setEnv_session (s : State) (e : Environment) : (s.setEnv e).session = s.session := rfl
@[simp] theorem State.setEnv_tOpen (s : State) (e : Environment) : (s.setEnv e).tOpen = s.tOpen := rfl
@[simp] theorem State.setEnv_rx (s : State) (e : Environment) : (s.setEnv e).rx = s.rx := rfl
@[simp] theorem State.setEnv_tx (s : State) (e : Environment) : (s.setEnv e).tx = s.tx := rfl
@[simp] theorem State.setEnv_completion (s : State) (e : Environment) : (s.setEnv e).completion = s.completion := rfl
@[simp] theorem State.setEnv_calls (s : State) (e : Environment) : (s.setEnv e).calls = s.calls := rfl
@[simp] theorem State.setEnv_env (s : State) (e : Environment) : (s.setEnv e).env = e := rfl
@[simp] theorem State.setEnv_inbox (s : State) (e : Environment) : (s.setEnv e).inbox = s.inbox := rfl

@[simp] theorem State.call_session (s : State) (c : TransportCall) : (s.call c).session = s.session := rfl
@[simp] theorem State.call_tOpen (s : State) (c : TransportCall) : (s.call c).tOpen = s.tOpen := rfl
@[simp] theorem State.call_rx (s : State) (c : TransportCall) : (s.call c).rx = s.rx := rfl
@[simp] theorem State.call_tx (s : State) (c : TransportCall) : (s.call c).tx = s.tx := rfl
@[simp] theorem State.call_completion (s : State) (c : TransportCall) : (s.call c).completion = s.completion := rfl
@[simp] theorem State.call_calls (s : State) (c : TransportCall) : (s.call c).calls = s.calls ++ [c] := rfl
@[simp] theorem State.call_env (s : State) (c : TransportCall) : (s.call c).env = s.env := rfl
@[simp] theorem State.call_inbox (s : State) (c : TransportCall) : (s.call c).inbox = s.inbox := rfl

@[simp] theorem State.setInbox_session (s : State) (l : List Presented) : (s.setInbox l).session = s.session := rfl
@[simp] theorem State.setInbox_tOpen (s : State) (l : List Presented) : (s.setInbox l).tOpen = s.tOpen := rfl
@[simp] theorem State.setInbox_rx (s : State) (l : List Presented) : (s.setInbox l).rx = s.rx := rfl
@[simp] theorem State.setInbox_tx (s : State) (l : List Presented) : (s.setInbox l).tx = s.tx := rfl
@[simp] theorem State.setInbox_completion (s : State) (l : List Presented) : (s.setInbox l).completion = s.completion := rfl
@[simp] theorem State.setInbox_calls (s : State) (l : List Presented) : (s.setInbox l).calls = s.calls := rfl
@[simp] theorem State.setInbox_env (s : State) (l : List Presented) : (s.setInbox l).env = s.env := rfl
@[simp] theorem State.setInbox_inbox (s : State) (l : List Presented) : (s.setInbox l).inbox = l := rfl

theorem State.ls_eq (s : State) : s.ls = s.session.map Session.link := rfl

theorem State.cfg_eq (s : State) : s.cfg = s.session.map Session.config := rfl

@[simp] theorem Session.withLink_link (x : Session) (l : LinkState) : (x.withLink l).link = l := rfl
@[simp] theorem Session.withLink_config (x : Session) (l : LinkState) : (x.withLink l).config = x.config := rfl

@[simp] theorem LinkState.markLive_isOpen (l : LinkState) (now : Int) : (l.markLive now).isOpen = l.isOpen := rfl
@[simp] theorem LinkState.markLive_timeoutFlag (l : LinkState) (now : Int) : (l.markLive now).timeoutFlag = false := rfl
@[simp] theorem LinkState.markLive_lastLiveAt (l : LinkState) (now : Int) : (l.markLive now).lastLiveAt = now := rfl
@[simp] theorem LinkState.markLive_timeoutPeriod (l : LinkState) (now : Int) :
    (l.markLive now).timeoutPeriod = l.timeoutPeriod := rfl

@[simp] theorem LinkState.rearm_isOpen (l : LinkState) : l.rearm.isOpen = l.isOpen := rfl
@[simp] theorem LinkState.rearm_timeoutFlag (l : LinkState) : l.rearm.timeoutFlag = true := rfl
@[simp] theorem LinkState.rearm_lastLiveAt (l : LinkState) : l.rearm.lastLiveAt = l.lastLiveAt := rfl
@[simp] theorem LinkState.rearm_timeoutPeriod (l : LinkState) : l.rearm.timeoutPeriod = l.timeoutPeriod := rfl

end Sys2Proof.Machine
end

