-- ==== Sys2Proof/Laws/Ops.lean ====
section
/-! SUPPORT. One law per shared operation: everything it can do to each field. -/

namespace Sys2Proof.Machine

/-! ### The guards and the comparators -/

theorem tooLong_iff (fv : List Word) : tooLong fv = true ↔ 10 < fv.length := decide_eq_true_iff

theorem tooLong_false_iff (fv : List Word) : tooLong fv = false ↔ fv.length ≤ 10 :=
  decide_eq_false_iff_not.trans Nat.not_lt

theorem countTooLarge_iff (c : Byte) : countTooLarge c = true ↔ 10 < c.toNat := decide_eq_true_iff

theorem countTooLarge_false_iff (c : Byte) : countTooLarge c = false ↔ c.toNat ≤ 10 :=
  decide_eq_false_iff_not.trans Nat.not_lt

theorem linkIsLive_iff (l : LinkState) (now period : Int) :
    linkIsLive l now period = true ↔ l.timeoutFlag = false ∧ now - l.lastLiveAt < period := by
  simp [linkIsLive]

theorem pollExceeded_iff (l : LinkState) (now period : Int) :
    pollExceeded l now period = true ↔ period < now - l.lastLiveAt := decide_eq_true_iff

theorem pollExceeded_false_iff (l : LinkState) (now period : Int) :
    pollExceeded l now period = false ↔ now - l.lastLiveAt ≤ period :=
  decide_eq_false_iff_not.trans Int.not_lt

/-! ### The draws -/

theorem openAnswer_presented (e : Environment) (b : Bool) (l : List Bool) (h : e.openAnswers = b :: l) :
    openAnswer e = b := by simp [openAnswer, h]

theorem writeCount_presented (e : Environment) (w : Nat) (l : List Nat) (h : e.writeCounts = w :: l) :
    writeCount e = w := by simp [writeCount, h]

theorem readArrival_presented (e : Environment) (a : Bytes) (l : List Bytes) (h : e.readArrivals = a :: l) :
    readArrival e = a := by simp [readArrival, h]

/-! ### The stream primitives -/

theorem arrive_eq (a : Bytes) (s : State) : arrive a s = { s with rx := s.rx ++ a } := rfl

theorem rxReadState_eq (n : Nat) (t : Millis) (s : State) :
    rxReadState n t s =
      { s with rx := (s.rx ++ readArrival s.env).drop n, env := s.env.afterRead, calls := s.calls ++ [.read n t] } := rfl

@[simp] theorem rxReadState_session (n : Nat) (t : Millis) (s : State) : (rxReadState n t s).session = s.session := rfl
@[simp] theorem rxReadState_tOpen (n : Nat) (t : Millis) (s : State) : (rxReadState n t s).tOpen = s.tOpen := rfl
@[simp] theorem rxReadState_rx (n : Nat) (t : Millis) (s : State) : (rxReadState n t s).rx = (rxAtRead s).drop n := rfl
@[simp] theorem rxReadState_tx (n : Nat) (t : Millis) (s : State) : (rxReadState n t s).tx = s.tx := rfl
@[simp] theorem rxReadState_env (n : Nat) (t : Millis) (s : State) : (rxReadState n t s).env = s.env.afterRead := rfl
@[simp] theorem rxReadState_calls (n : Nat) (t : Millis) (s : State) :
    (rxReadState n t s).calls = s.calls ++ [.read n t] := rfl
@[simp] theorem rxReadState_completion (n : Nat) (t : Millis) (s : State) :
    (rxReadState n t s).completion = s.completion := rfl
@[simp] theorem rxReadState_inbox (n : Nat) (t : Millis) (s : State) : (rxReadState n t s).inbox = s.inbox := rfl

/-- A read neither loses nor invents a byte: what it returns and what it leaves is what was there with what arrived. -/
theorem rxRead_conserves (n : Nat) (t : Millis) (s : State) :
    rxReadBytes n s ++ (rxReadState n t s).rx = rxAtRead s := by simp [rxReadBytes]

/-- A short read leaves the buffer empty. -/
theorem rxRead_short (n : Nat) (t : Millis) (s : State) (h : (rxReadBytes n s).length < n) :
    (rxReadState n t s).rx = [] := by
  simp [rxReadBytes] at h
  simp
  omega

theorem txTaken_le (bs : Bytes) (s : State) : txTaken bs s ≤ bs.length := Nat.min_le_right _ _

theorem txWriteState_eq (bs : Bytes) (s : State) :
    txWriteState bs s =
      { s with tx := s.tx ++ bs.take (txTaken bs s), env := s.env.afterWrite, calls := s.calls ++ [.write bs] } := rfl

theorem rxDiscard_eq (s : State) :
    rxDiscard s = { s with rx := [], calls := s.calls ++ [.discardInputBuffer] } := rfl

/-! ### The session -/

theorem withSession_none (s : State) (f : Session → Answer) (h : s.session = none) :
    withSession s f = .refused .noSession := by simp [withSession, h]

theorem withSession_some (s : State) (f : Session → Answer) (x : Session) (h : s.session = some x) :
    withSession s f = f x := by simp [withSession, h]

/-- An operation guarded by a session answers a next state only where there is one. -/
theorem withSession_next (s : State) (f : Session → Answer) (t : State) (h : withSession s f = .next t) :
    ∃ x, s.session = some x ∧ f x = .next t := by
  cases hs : s.session with
  | none => simp [withSession, hs] at h
  | some x => exact ⟨x, rfl, by simpa [withSession, hs] using h⟩

theorem askOpen_eq (p : PortId) (b : BaudRate) (s : State) :
    askOpen p b s = { s with env := s.env.afterOpen, calls := s.calls ++ [.openPort p b] } := rfl

theorem startSession_eq (x : Session) (s : State) :
    startSession x s = { s with tOpen := true, session := some x, tx := [] } := rfl

theorem endSession_eq (s : State) :
    endSession s = { s with tOpen := false, session := none, calls := s.calls ++ [.closePort] } := rfl

theorem frameDecoded_eq (x : Session) (now : Int) (s : State) :
    frameDecoded x now s = { s with session := some (x.withLink (x.link.markLive now)) } := rfl

theorem setTimeoutFlag_eq (x : Session) (s : State) :
    setTimeoutFlag x s = { s with session := some (x.withLink x.link.rearm) } := rfl

/-! ### The decoder -/

theorem decodeWhole_cases (hi lo c : Byte) (body : Bytes) :
    decodeWhole hi lo c body = .ok (.frame (headerOf hi lo) (payloadWords c.toNat (payloadPart c body))) ∨
      decodeWhole hi lo c body = .err .checksumMismatch true := by
  unfold decodeWhole
  split
  · exact .inl rfl
  · exact .inr rfl

/-- The states a decode can end in: after the first read, or after both. -/
theorem decodeSteps_state (t : Millis) (s : State) :
    (decodeSteps t s).2 = rxReadState Config.prefixLength t s ∨
      ∃ c : Byte, c.toNat ≤ Config.maxFloats ∧
        (decodeSteps t s).2 = rxReadState (bodyWanted c) t (rxReadState Config.prefixLength t s) := by
  unfold decodeSteps
  split
  · rename_i hi lo c _
    split
    · exact .inl rfl
    · rename_i hc
      refine .inr ⟨c, by simpa [countTooLarge] using hc, ?_⟩
      unfold decodeBody
      split <;> rfl
  · exact .inl rfl

/-- What a decode answers: a frame of at most ten lanes, or one of its three failures with its flag. -/
theorem decodeSteps_completion (t : Millis) (s : State) :
    (∃ h fv, (decodeSteps t s).1 = .ok (.frame h fv) ∧ fv.length ≤ Config.maxFloats) ∨
      (decodeSteps t s).1 = .err .incomplete false ∨ (decodeSteps t s).1 = .err .tooManyValues true ∨
      (decodeSteps t s).1 = .err .checksumMismatch true := by
  unfold decodeSteps
  split
  · rename_i hi lo c _
    split
    · exact .inr (.inr (.inl rfl))
    · rename_i hc
      have hc' : c.toNat ≤ Config.maxFloats := by simpa [countTooLarge] using hc
      unfold decodeBody
      split
      · exact .inr (.inl rfl)
      · rename_i hb
        rcases decodeWhole_cases hi lo c (rxReadBytes (bodyWanted c) (rxReadState Config.prefixLength t s)) with h | h
        · refine .inl ⟨_, _, h, ?_⟩
          rw [payloadWords_length]
          · exact hc'
          · simp only [payloadPart, List.length_take, bodyWanted, Config.bodyLength] at hb ⊢
            omega
        · exact .inr (.inr (.inr h))
  · exact .inr (.inl rfl)

/-- The fields no decode touches. -/
theorem decodeSteps_session (t : Millis) (s : State) : (decodeSteps t s).2.session = s.session := by
  rcases decodeSteps_state t s with h | ⟨c, _, h⟩ <;> rw [h] <;> rfl

theorem decodeSteps_tOpen (t : Millis) (s : State) : (decodeSteps t s).2.tOpen = s.tOpen := by
  rcases decodeSteps_state t s with h | ⟨c, _, h⟩ <;> rw [h] <;> rfl

theorem decodeSteps_tx (t : Millis) (s : State) : (decodeSteps t s).2.tx = s.tx := by
  rcases decodeSteps_state t s with h | ⟨c, _, h⟩ <;> rw [h] <;> rfl

theorem decodeSteps_completionField (t : Millis) (s : State) : (decodeSteps t s).2.completion = s.completion := by
  rcases decodeSteps_state t s with h | ⟨c, _, h⟩ <;> rw [h] <;> rfl

theorem decodeSteps_inbox (t : Millis) (s : State) : (decodeSteps t s).2.inbox = s.inbox := by
  rcases decodeSteps_state t s with h | ⟨c, _, h⟩ <;> rw [h] <;> rfl

/-- What the receive path adds to a decode, by the decode's result. -/
theorem receiveTail_ok (x : Session) (now : Int) (v : Value) (s : State) :
    receiveTail x now (.ok v) s = frameDecoded x now s := rfl

theorem receiveTail_discard (x : Session) (now : Int) (e : Failure) (s : State) :
    receiveTail x now (.err e true) s = rxDiscard s := rfl

theorem receiveTail_incomplete (x : Session) (now : Int) (e : Failure) (s : State) :
    receiveTail x now (.err e false) s = s := rfl

end Sys2Proof.Machine
end

