-- ==== Sys2Proof/Laws/Exec.lean ====
section
/-! SUPPORT. What an instruction can do, said once: every next state of `exec` is one of the cases of `Ran`. -/

namespace Sys2Proof.Machine

/-- The ways an instruction ends in a next state. -/
inductive Ran (s : State) : Instr → State → Prop where
  | arrival (i : Instr) (a : Bytes) (h : encode i = .arrival a) : Ran s i (arrive a s)
  | openTaken (p : PortId) (b : BaudRate) (tmo : Millis) (tp now : Int) (hs : s.session = none)
      (ha : openAnswer s.env = true) :
      Ran s (.opOpen p b tmo tp now)
        ((startSession (freshSession p b tmo tp now) (askOpen p b s)).complete (.ok .nothing))
  | openRefused (p : PortId) (b : BaudRate) (tmo : Millis) (tp now : Int) (hs : s.session = none)
      (ha : openAnswer s.env = false) :
      Ran s (.opOpen p b tmo tp now) ((askOpen p b s).complete (requestFailure .connectionError))
  | closeIdle (hs : s.session = none) : Ran s .opClose (s.complete (.ok .nothing))
  | closeSession (x : Session) (hs : s.session = some x) : Ran s .opClose ((endSession s).complete (.ok .nothing))
  | isOpen (b : Bool) : Ran s .opIsOpen (s.complete (.ok (.bool b)))
  | encodeFrame (h : Header) (fv : List Word) (hl : fv.length ≤ 10) :
      Ran s (.opEncode h fv) (s.complete (.ok (.bytes (frame h fv))))
  | encodeTooLong (h : Header) (fv : List Word) (hl : 10 < fv.length) :
      Ran s (.opEncode h fv) (s.complete (requestFailure .tooManyValues))
  | sendTooLong (h : Header) (fv : List Word) (hl : 10 < fv.length) :
      Ran s (.opSend h fv) (s.complete (requestFailure .tooManyValues))
  | sendNoSession (h : Header) (fv : List Word) (hl : fv.length ≤ 10) (hs : s.session = none) :
      Ran s (.opSend h fv) (s.complete (requestFailure .connectionError))
  | sendWrites (h : Header) (fv : List Word) (x : Session) (hl : fv.length ≤ 10) (hs : s.session = some x) :
      Ran s (.opSend h fv) ((txWriteState (frame h fv) s).complete
        (if txTaken (frame h fv) s = (frame h fv).length then .ok .nothing else requestFailure .connectionError))
  | decodes (x : Session) (hs : s.session = some x) :
      Ran s .opDecode ((decodeSteps x.config.readTimeoutMs s).2.complete (decodeSteps x.config.readTimeoutMs s).1)
  | receives (now : Int) (x : Session) (hs : s.session = some x) :
      Ran s (.opReceive now) ((receiveTail x now (decodeSteps x.config.readTimeoutMs s).1
        (decodeSteps x.config.readTimeoutMs s).2).complete (decodeSteps x.config.readTimeoutMs s).1)
  | discards (x : Session) (hs : s.session = some x) : Ran s .opDiscard ((rxDiscard s).complete (.ok .nothing))
  | marksLive (now : Int) (x : Session) (hs : s.session = some x) :
      Ran s (.opOnFrameDecoded now) ((frameDecoded x now s).complete (.ok .nothing))
  | compares (now tp : Int) (x : Session) (hs : s.session = some x) :
      Ran s (.opIsLive now tp) (s.complete (.ok (.bool (linkIsLive x.link now tp))))
  | rearms (x : Session) (hs : s.session = some x) : Ran s .opRearm ((setTimeoutFlag x s).complete (.ok .nothing))
  | readsLs (x : Session) (hs : s.session = some x) : Ran s .opReadLs (s.complete (.ok (.linkState x.link)))
  | pollRearms (now period : Int) (x : Session) (hs : s.session = some x) (hp : period < now - x.link.lastLiveAt) :
      Ran s (.pollRearm now period) ((setTimeoutFlag x s).complete (.ok .nothing))
  | pollKeeps (now period : Int) (x : Session) (hs : s.session = some x) (hp : now - x.link.lastLiveAt ≤ period) :
      Ran s (.pollRearm now period) (s.complete (.ok (.linkState x.link)))

/-- The inversion law of `exec`. -/
theorem exec_ran (i : Instr) (s t : State) (h : exec i s = .next t) : Ran s i t := by
  have guarded : ∀ f : Session → Answer, withSession s f = .next t → ∃ x, s.session = some x ∧ f x = .next t :=
    fun f => withSession_next s f t
  cases i with
  | opOpen p b tmo tp now =>
    cases hs : s.session with
    | some x => simp [exec, execOpen, hs] at h
    | none =>
      simp only [exec, execOpen, hs, Host.Outcome.next.injEq] at h
      subst h
      cases ha : openAnswer s.env with
      | true => simpa using Ran.openTaken p b tmo tp now hs ha
      | false => simpa using Ran.openRefused p b tmo tp now hs ha
  | opClose =>
    cases hs : s.session with
    | none => simp only [exec, execClose, hs, Host.Outcome.next.injEq] at h; subst h; exact .closeIdle hs
    | some x => simp only [exec, execClose, hs, Host.Outcome.next.injEq] at h; subst h; exact .closeSession x hs
  | opIsOpen =>
    cases hs : s.session with
    | none => simp only [exec, execIsOpen, hs, Host.Outcome.next.injEq] at h; subst h; exact .isOpen _
    | some x => simp only [exec, execIsOpen, hs, Host.Outcome.next.injEq] at h; subst h; exact .isOpen _
  | opEncode hd fv =>
    cases hl : tooLong fv with
    | true => simp [exec, execEncode, hl] at h; subst h; exact .encodeTooLong hd fv ((tooLong_iff fv).1 hl)
    | false => simp [exec, execEncode, hl] at h; subst h; exact .encodeFrame hd fv ((tooLong_false_iff fv).1 hl)
  | opSend hd fv =>
    cases hl : tooLong fv with
    | true => simp [exec, execSend, hl] at h; subst h; exact .sendTooLong hd fv ((tooLong_iff fv).1 hl)
    | false =>
      have hl' := (tooLong_false_iff fv).1 hl
      cases hs : s.session with
      | none => simp [exec, execSend, hl, hs] at h; subst h; exact .sendNoSession hd fv hl' hs
      | some x =>
        simp only [exec, execSend, hl, hs, Bool.false_eq_true, if_false, Host.Outcome.next.injEq] at h
        subst h
        exact .sendWrites hd fv x hl' hs
  | opDecode => obtain ⟨x, hs, hf⟩ := guarded _ h; cases hf; exact .decodes x hs
  | opReceive now => obtain ⟨x, hs, hf⟩ := guarded _ h; cases hf; exact .receives now x hs
  | opDiscard => obtain ⟨x, hs, hf⟩ := guarded _ h; cases hf; exact .discards x hs
  | opOnFrameDecoded now => obtain ⟨x, hs, hf⟩ := guarded _ h; cases hf; exact .marksLive now x hs
  | opIsLive now tp => obtain ⟨x, hs, hf⟩ := guarded _ h; cases hf; exact .compares now tp x hs
  | opRearm => obtain ⟨x, hs, hf⟩ := guarded _ h; cases hf; exact .rearms x hs
  | opReadLs => obtain ⟨x, hs, hf⟩ := guarded _ h; cases hf; exact .readsLs x hs
  | reservedC => simp [exec, execReservedC] at h
  | reservedD => simp [exec, execReservedD] at h
  | reservedE => simp [exec, execReservedE] at h
  | reservedF => simp [exec, execReservedF] at h
  | pollRearm now period =>
    obtain ⟨x, hs, hf⟩ := guarded _ h
    cases hp : pollExceeded x.link now period with
    | true => simp only [hp, if_true] at hf; cases hf; exact .pollRearms now period x hs ((pollExceeded_iff _ _ _).1 hp)
    | false =>
      simp only [hp, Bool.false_eq_true, if_false] at hf
      cases hf
      exact .pollKeeps now period x hs ((pollExceeded_false_iff _ _ _).1 hp)
  | frameN0 hd fv ck => cases h; exact .arrival _ _ rfl
  | frameN1 hd fv ck => cases h; exact .arrival _ _ rfl
  | frameN2 hd fv ck => cases h; exact .arrival _ _ rfl
  | frameN3 hd fv ck => cases h; exact .arrival _ _ rfl
  | frameN4 hd fv ck => cases h; exact .arrival _ _ rfl
  | frameN5 hd fv ck => cases h; exact .arrival _ _ rfl
  | frameN6 hd fv ck => cases h; exact .arrival _ _ rfl
  | frameN7 hd fv ck => cases h; exact .arrival _ _ rfl
  | frameN8 hd fv ck => cases h; exact .arrival _ _ rfl
  | frameN9 hd fv ck => cases h; exact .arrival _ _ rfl
  | frameN10 hd fv ck => cases h; exact .arrival _ _ rfl
  | frameIllegal hd c => cases h; exact .arrival _ _ rfl

/-- The inversion law of `step`: nothing happens, an instruction runs, or an unframed arrival is appended. -/
theorem step_cases (s t : State) (h : step s = .next t) :
    (s.inbox = [] ∧ t = s) ∨
      (∃ p rest i, s.inbox = p :: rest ∧ decode p = .ok i ∧ exec i (afterFetch s) = .next t) ∨
      ∃ a rest, s.inbox = .arrival a :: rest ∧ t = arrive a (afterFetch s) := by
  unfold step at h
  split at h
  · rename_i hi; cases h; exact .inl ⟨hi, rfl⟩
  · rename_i p rest hi
    split at h
    · rename_i i hd; exact .inr (.inl ⟨p, rest, i, hi, hd, h⟩)
    · rename_i r hd
      cases p with
      | arrival a =>
        simp only [decode] at hd
        split at hd
        · cases hd
        · cases hd; cases h; exact .inr (.inr ⟨a, rest, hi, rfl⟩)
      | overlapping q q' => cases hd; simp [runUndecoded] at h
      | request q => cases hd
      | poll now period => cases hd

end Sys2Proof.Machine
end

