-- ==== Sys2Proof/Tests/Slice0.lean ====
section
/-! SUPPORT. The model's own tests. Expected results come from spec/95_test_vectors.md (the vector is named) or from the rule
named; the witnesses show that the hypotheses of the statements can be met together. -/

namespace Sys2Proof.Tests

open Sys2Proof.Machine

/-! ### Helpers -/

/-- A configuration to stand for "any". -/
def anyConfig : LinkConfig := { portId := 7, baudRate := 9600, readTimeoutMs := 100 }

/-- No session, `RX` as given, three empty arrivals and one full write ready, `open` answered `true`. -/
def idle (rx : Bytes) : State :=
  { session := none, tOpen := false, rx := rx, tx := [], completion := none, calls := [],
    env := { openAnswers := [true], writeCounts := [44], readArrivals := [[], [], [], []], opens := 0, writes := 0,
             reads := 0 },
    inbox := [] }

/-- A session with the flag and time given, period 1000, `RX` as given. -/
def live (flag : Bool) (last : Int) (rx : Bytes) : State :=
  { idle rx with
    session := some { link := { isOpen := true, timeoutFlag := flag, lastLiveAt := last, timeoutPeriod := 1000 },
                      config := anyConfig }
    tOpen := true }

/-- The same state with the draws of a vector. -/
def drawing (s : State) (opens : List Bool) (writes : List Nat) (reads : List Bytes) : State :=
  s.withAnswers opens writes reads

/-- The next state of an answer. -/
def endOf : Answer → Option State
  | .next t => some t
  | .fault _ => none
  | .refused _ => none

def completionOf (a : Answer) : Option Completion := (endOf a).bind State.completion

def rxOf (a : Answer) : Option Bytes := (endOf a).map State.rx

def txOf (a : Answer) : Option Bytes := (endOf a).map State.tx

def lsOf (a : Answer) : Option (Option LinkState) := (endOf a).map State.ls

/-- Scenario A of the source. -/
def scenarioA : Bytes := [0x00, 0x01, 0x01, 0x00, 0x00, 0x80, 0x3F, 0xBF]

/-! ### WellFormed: each check refuses an ill-formed term -/

theorem test_wellFormed_lanes : wellFormed (.frameN1 0x0001 [] 0x00) = false := by decide

theorem test_wellFormed_checksum : wellFormed (.frameN1 0x0001 [0x3F800000] 0xBE) = false := by decide

theorem test_wellFormed_count : wellFormed (.frameIllegal 0x0001 0x0A) = false := by decide

theorem test_wellFormed_scenarioA : wellFormed (.frameN1 0x0001 [0x3F800000] 0xBF) = true := by decide

theorem test_wellFormed_illegal : wellFormed (.frameIllegal 0x0001 0x0B) = true := by decide

/-! ### Decode: words written out from rules R80, R91, R92 -/

theorem test_decode_selectors :
    [0x0, 0x1, 0x2, 0x3, 0x4, 0x5, 0x6, 0x7, 0x8, 0x9, 0xA, 0xB, 0xC, 0xD, 0xE, 0xF].map (decodeTableWord 8) =
      [some (.opOpen 0 0 0 0 0), some .opClose, some .opIsOpen, some (.opEncode 0 []), some (.opSend 0 []),
       some .opDecode, some (.opReceive 0), some .opDiscard, some (.opOnFrameDecoded 0), some (.opIsLive 0 0),
       some .opRearm, some .opReadLs, some .reservedC, some .reservedD, some .reservedE, some .reservedF] := by decide

/-- Every operand comes from its own port (rule R93). -/
theorem test_decode_ports :
    decodeRequest ⟨0x0, { identifier := 1, baudRate := 2, readTimeoutMs := 3, timeoutPeriod := 4, now := 5 }⟩ =
      .opOpen 1 2 3 4 5 := by decide

theorem test_decode_poll : decode (.poll 1251 1000) = .ok (.pollRearm 1251 1000) := rfl

/-- The frame rows by their count in the low byte of the 24-bit prefix (rule R98), header `0x1234`, the rest zero. -/
theorem test_decode_frameRows :
    (List.range 11).map (fun n => decodeTableWord 24 (0x123400 + n)) =
      [some (.frameN0 0x1234 [] 0), some (.frameN1 0x1234 [0] 0), some (.frameN2 0x1234 [0, 0] 0),
       some (.frameN3 0x1234 [0, 0, 0] 0), some (.frameN4 0x1234 [0, 0, 0, 0] 0), some (.frameN5 0x1234 [0, 0, 0, 0, 0] 0),
       some (.frameN6 0x1234 [0, 0, 0, 0, 0, 0] 0), some (.frameN7 0x1234 [0, 0, 0, 0, 0, 0, 0] 0),
       some (.frameN8 0x1234 [0, 0, 0, 0, 0, 0, 0, 0] 0), some (.frameN9 0x1234 [0, 0, 0, 0, 0, 0, 0, 0, 0] 0),
       some (.frameN10 0x1234 [0, 0, 0, 0, 0, 0, 0, 0, 0, 0] 0)] := by decide

/-- Scenario A as bytes (S-A). -/
theorem test_decode_scenarioA : decode (.arrival scenarioA) = .ok (.frameN1 0x0001 [0x3F800000] 0xBF) := by rfl

/-- V8: lanes little-endian and in order, header big-endian. -/
theorem test_decode_twoLanes :
    decode (.arrival [0x12, 0x34, 0x02, 0x00, 0x00, 0x20, 0xC0, 0xDB, 0x0F, 0x49, 0x40, 0x19]) =
      .ok (.frameN2 0x1234 [0xC0200000, 0x40490FDB] 0x19) := by rfl

theorem test_decode_illegalCount : decode (.arrival [0x00, 0x01, 0xFF]) = .ok (.frameIllegal 0x0001 0xFF) := by rfl

theorem test_decode_rejects :
    (decodeArrival [0x00, 0x01], decodeArrival [0x00, 0x01, 0x01, 0x00], decodeArrival (scenarioA ++ [0x00])).1 =
        .error .shortPrefix ∧
      decodeArrival [0x00, 0x01, 0x01, 0x00] = .error .shortBody ∧
      decodeArrival (scenarioA ++ [0x00]) = .error .excessBytes ∧
      decodeArrival [0x00, 0x01, 0x0B, 0xAA] = .error .excessBytes := ⟨rfl, rfl, rfl, rfl⟩

/-! ### ENCODE (vectors V4, V10, V11) -/

theorem test_encode_scenarioA : completionOf (exec (.opEncode 0x0001 [0x3F800000]) (idle [])) = some (.ok (.bytes scenarioA)) := by
  decide

theorem test_encode_longest_and_tooLong :
    completionOf (exec (.opEncode 0xABCD [0x00000000, 0x80000000, 0x7F800000, 0xFF800000, 0x7FC00000, 0x7FA00001, 0x00000001,
      0x7F7FFFFF, 0x3F800000, 0xBF800000]) (idle [])) =
      some (.ok (.bytes [0xAB, 0xCD, 0x0A, 0x00, 0x00, 0x00, 0x00, 0x00, 0x00, 0x00, 0x80, 0x00, 0x00, 0x80, 0x7F, 0x00, 0x00,
        0x80, 0xFF, 0x00, 0x00, 0xC0, 0x7F, 0x01, 0x00, 0xA0, 0x7F, 0x01, 0x00, 0x00, 0x00, 0xFF, 0xFF, 0x7F, 0x7F, 0x00, 0x00,
        0x80, 0x3F, 0x00, 0x00, 0x80, 0xBF, 0x8C])) ∧
    completionOf (exec (.opEncode 0x0007 (List.replicate 11 0)) (idle [])) = some (.err .tooManyValues false) := by decide

/-! ### SEND (V14, V17a) -/

theorem test_send_short :
    txOf (exec (.opSend 0x0001 [0x3F800000]) (drawing (live true 0 []) [] [5] [])) = some [0x00, 0x01, 0x01, 0x00, 0x00] ∧
      completionOf (exec (.opSend 0x0001 [0x3F800000]) (drawing (live true 0 []) [] [5] [])) =
        some (.err .connectionError false) := by decide

theorem test_send_lengthFirst :
    completionOf (exec (.opSend 0x0007 (List.replicate 11 0)) (idle [])) = some (.err .tooManyValues false) ∧
      completionOf (exec (.opSend 0x0001 []) (idle [])) = some (.err .connectionError false) := by decide

/-! ### DECODE (V28, V35) -/

theorem test_decode_tailArrives :
    completionOf (exec .opDecode (drawing (live true 0 [0x00, 0x01, 0x01, 0x00, 0x00]) [] [] [[], [0x80, 0x3F, 0xBF]])) =
      some (.ok (.frame 0x0001 [0x3F800000])) := by decide

theorem test_decode_countCorruptedUpwards :
    completionOf (exec .opDecode (live true 0 [0x00, 0x01, 0x02, 0x00, 0x00, 0x80, 0x3F, 0xBF, 0x00, 0x00, 0x00, 0x00])) =
        some (.err .checksumMismatch true) ∧
      completionOf (exec .opDecode (live true 0 [0x00, 0x01, 0x02, 0x00, 0x00, 0x80, 0x3F, 0xBF, 0x00, 0x00, 0x00, 0x03])) =
        some (.ok (.frame 0x0001 [0x3F800000, 0x000000BF])) := by decide

/-! ### RECEIVE (V45, V49) -/

theorem test_receive_discards :
    rxOf (exec (.opReceive 500) (live true 0 ([0x00, 0x01, 0x01, 0x00, 0x00, 0x80, 0x3F, 0xBE] ++ scenarioA))) = some [] ∧
      lsOf (exec (.opReceive 500) (live true 0 [0x00, 0x01, 0x01, 0x00, 0x00, 0x80, 0x3F, 0xBE])) =
        some (some { isOpen := true, timeoutFlag := true, lastLiveAt := 0, timeoutPeriod := 1000 }) := by decide

theorem test_receive_timeStepsBack :
    lsOf (exec (.opReceive 400) (live false 900 [0x00, 0x00, 0x00, 0x00])) =
      some (some { isOpen := true, timeoutFlag := false, lastLiveAt := 400, timeoutPeriod := 1000 }) := by decide

/-! ### DISCARD (V50), against the bare DECODE (V21) -/

theorem test_discard : rxOf (exec .opDiscard (live true 0 [0xAA, 0xBB, 0xCC, 0xDD, 0xEE])) = some [] := by decide

theorem test_decode_leavesRest :
    rxOf (exec .opDecode (live true 0 [0x00, 0x01, 0x0B, 0xAA, 0xBB, 0xCC])) = some [0xAA, 0xBB, 0xCC] := by decide

/-! ### OPEN (V54, V55, V62), CLOSE (V58), IS_OPEN (V53), READ_LS (V56) -/

theorem test_open_negative :
    lsOf (exec (.opOpen 1 2 3 0 (-7)) (idle [0x55, 0x66])) =
        some (some { isOpen := true, timeoutFlag := true, lastLiveAt := -7, timeoutPeriod := 0 }) ∧
      rxOf (exec (.opOpen 1 2 3 0 (-7)) (idle [0x55, 0x66])) = some [0x55, 0x66] := by decide

theorem test_open_refused :
    completionOf (exec (.opOpen 1 2 3 1000 0) (drawing (idle []) [false] [] [])) = some (.err .connectionError false) ∧
      lsOf (exec (.opOpen 1 2 3 1000 0) (drawing (idle []) [false] [] [])) = some none := by decide

theorem test_close : (endOf (exec .opClose (live false 250 [0x01]))).map (fun t => (t.session, t.tOpen, t.rx)) =
    some (none, false, [0x01]) := by decide

theorem test_isOpen : completionOf (exec .opIsOpen (idle [])) = some (.ok (.bool false)) ∧
    completionOf (exec .opIsOpen (live true 0 [])) = some (.ok (.bool true)) := by decide

theorem test_readLs : completionOf (exec .opReadLs (live true 0 [])) =
    some (.ok (.linkState { isOpen := true, timeoutFlag := true, lastLiveAt := 0, timeoutPeriod := 1000 })) := by decide

/-! ### Liveness (V65, V67, V68, V70, V75, V76, V79, V80) -/

theorem test_onFrameDecoded : lsOf (exec (.opOnFrameDecoded 250) (live true 0 [])) =
    some (some { isOpen := true, timeoutFlag := false, lastLiveAt := 250, timeoutPeriod := 1000 }) := by decide

theorem test_isLive_boundary :
    [(1249, 1000), (1250, 1000), (1249, 999)].map (fun p => completionOf (exec (.opIsLive p.1 p.2) (live false 250 []))) =
      [some (.ok (.bool true)), some (.ok (.bool false)), some (.ok (.bool false))] := by decide

theorem test_isLive_clockStepsBack :
    completionOf (exec (.opIsLive 1299 0) (live false 1300 [])) = some (.ok (.bool true)) ∧
      completionOf (exec (.opIsLive 300 1000) (live true 250 [])) = some (.ok (.bool false)) := by decide

theorem test_rearm : lsOf (exec .opRearm (live false 250 [])) =
    some (some { isOpen := true, timeoutFlag := true, lastLiveAt := 250, timeoutPeriod := 1000 }) := by decide

theorem test_pollRearm :
    [1250, 1251].map (fun now => (lsOf (exec (.pollRearm now 1000) (live false 250 []))).map (Option.map LinkState.timeoutFlag)) =
      [some (some false), some (some true)] := by decide

/-! ### Reserved selectors (V61) and frame rows -/

theorem test_reserved : exec .reservedC (live true 0 []) = .refused (.reservedSelector 0xC) := rfl

theorem test_frameRow_arrives : rxOf (exec (.frameN1 0x0001 [0x3F800000] 0xBF) (live true 0 [0x77])) =
    some (0x77 :: scenarioA) := by decide

theorem test_frameIllegal_arrives : rxOf (exec (.frameIllegal 0x0001 0x0B) (idle [])) = some [0x00, 0x01, 0x0B] := by decide

/-! ### The step -/

/-- V30: a false success from one flipped count bit, presented as a request. -/
theorem test_step_request :
    completionOf (step (State.withFetchWord (live true 0 [0x00, 0x01, 0x00, 0x01, 0x00, 0x80, 0x3F, 0xBE]) 8 0x5)) =
      some (.ok (.frame 0x0001 [])) := by decide

theorem test_step_frameWord : rxOf (step (State.withFetchWord (idle []) 24 0x000100)) = some [0x00, 0x01, 0x00, 0x00] := by
  decide

theorem test_step_rawArrival :
    rxOf (step { idle [0x01] with inbox := [.arrival [0xAA, 0xBB]] }) = some [0x01, 0xAA, 0xBB] := by decide

/-! ### Witnesses: the hypotheses of the statements can be met together -/

/-- `DecodeOfEncodeIsIdentity`, at the row with the most lanes. -/
theorem witness_DecodeOfEncodeIsIdentity : wellFormed (.frameN10 0 (List.replicate 10 0) 0x0A) = true := by decide

theorem witness_EncodeOfDecodedArrivalIsIdentity : ∃ i, decode (.arrival scenarioA) = .ok i := ⟨_, test_decode_scenarioA⟩

/-- `FrameOffsetMap`, `EncodeResult` and `EncodeGuarantees` at their longest payload and one above it. -/
theorem witness_lengths : (List.replicate 10 (0x3F800000 : Word)).length ≤ 10 ∧
    (List.replicate 10 (0x3F800000 : Word))[9]? = some 0x3F800000 ∧ 10 < (List.replicate 11 (0 : Word)).length := by decide

/-- `OperandsAssembledFromFrameBytes` and `ChecksumFoldsFrameToZero`: the shortest and the longest legal frame. -/
theorem witness_frameShape :
    (4 ≤ [(0 : Byte), 0, 0, 0].length ∧ countOf [0, 0, 0, 0] ≤ 10 ∧ [(0 : Byte), 0, 0, 0].length = 4 + 4 * countOf [0, 0, 0, 0]) ∧
      countOf (frame 0 (List.replicate 10 0)) = 10 ∧ (frame 0 (List.replicate 10 0)).length = 4 + 4 * 10 := by decide

theorem witness_ParseAndFrameAreInverse : isWellFormedFrame scenarioA = true := by decide

theorem witness_StepRunsDecodedInstruction :
    { idle [] with inbox := [.arrival scenarioA, .poll 0 0] }.inbox = .arrival scenarioA :: [.poll 0 0] ∧
      ∃ i, decode (.arrival scenarioA) = .ok i := ⟨rfl, _, test_decode_scenarioA⟩

theorem witness_StepOnArrivalAppendsToRx :
    ({ idle [] with inbox := [.arrival [0xAA]] }.inbox = .arrival [0xAA] :: []) ∧
      ({ idle [] with inbox := [.arrival scenarioA] }.inbox = .arrival scenarioA :: []) := ⟨rfl, rfl⟩

theorem witness_StepWithoutEventOrWithOverlap : (idle []).inbox = [] ∧
    { idle [] with inbox := [.overlapping { selector := 4 } { selector := 6 }] }.inbox =
      .overlapping { selector := 4 } { selector := 6 } :: [] := ⟨rfl, rfl⟩

/-- `RxReadContract`: a short read and a full one. -/
theorem witness_RxReadContract : 1 ≤ 3 ∧ (rxReadBytes 3 (live true 0 [0x00, 0x01])).length < 3 ∧
    3 ≤ (live true 0 [0x00, 0x01, 0x01]).rx.length := by decide

theorem witness_TxWriteContract : 0 ≤ scenarioA.length ∧ scenarioA.length ≤ scenarioA.length := by decide

theorem witness_RxDiscardContract : (idle []).rx = [] := rfl

/-- `SendResult`: each clause, at the boundary of the length guard. -/
theorem witness_SendResult : 10 < (List.replicate 11 (0 : Word)).length ∧
    ((List.replicate 10 (0 : Word)).length ≤ 10 ∧ (idle []).session = none) ∧
    ∃ x, (live true 0 []).session = some x ∧ 44 = min (writeCount (live true 0 []).env) (4 + 4 * 10) :=
  ⟨by decide, ⟨by decide, rfl⟩, _, rfl, by decide⟩

theorem witness_SendRunConcatenatesFrames :
    ∃ t, SendsComplete [(0x0000, []), (0x1234, [])] (drawing (live true 0 []) [] [4, 4] []) t :=
  ⟨_, _, rfl, by decide, _, rfl, by decide, rfl⟩

/-- `DecodeOutcomes`: each clause at a boundary: no session; two bytes; count 11; count 10 one byte short; count 0 whole. -/
theorem witness_DecodeOutcomes :
    (idle []).session = none ∧ (∃ x, (live true 0 [0x00, 0x01]).session = some x) ∧
    ((live true 0 [0x00, 0x01]).rx ++ readArrival (live true 0 []).env).length < 3 ∧
    10 < (0x0B : Byte).toNat ∧
    ((0x0A : Byte).toNat ≤ 10 ∧ (List.replicate 40 (0 : Byte) ++ readArrival (live true 0 []).env.afterRead).length <
      4 * (0x0A : Byte).toNat + 1) ∧
    (([] : Bytes).length = 4 * (0x00 : Byte).toNat ∧ ([0x26] : Bytes) ++ readArrival (live true 0 []).env.afterRead =
      [] ++ 0x26 :: []) :=
  ⟨rfl, ⟨_, rfl⟩, by decide, by decide, ⟨by decide, by decide⟩, by decide, by decide⟩

theorem witness_DecodeOfBufferedFrame :
    ∃ x, (live true 0 (scenarioA ++ [0x12])).session = some x ∧ [(0x3F800000 : Word)].length ≤ 10 ∧
      (live true 0 (scenarioA ++ [0x12])).rx = frame 0x0001 [0x3F800000] ++ [0x12] := ⟨_, rfl, by decide, by decide⟩

theorem witness_TruncatedFrameIsIncomplete :
    ∃ x, (live true 0 (scenarioA.take 7)).session = some x ∧ 7 < 4 + 4 * 1 ∧
      (live true 0 (scenarioA.take 7)).rx = (frame 0x0001 [0x3F800000]).take 7 ∧
      readArrival (live true 0 []).env = [] ∧ readArrival (live true 0 []).env.afterRead = [] :=
  ⟨_, rfl, by decide, by decide, by decide, by decide⟩

/-- `OneCorruptByteIsDetected` on scenario D (its last byte `BE`). -/
theorem witness_OneCorruptByteIsDetected :
    (frame 0x0001 [0x3F800000])[7]? ≠ some 0xBE ∧
      (live true 0 [0x00, 0x01, 0x01, 0x00, 0x00, 0x80, 0x3F, 0xBE]).rx = (frame 0x0001 [0x3F800000]).set 7 0xBE ++ [] := by
  decide

/-- `CorruptCountByteOutcomes`: V30, V32 and V33's frame with its count byte at 0, 3 and 0x11. -/
theorem witness_CorruptCountByteOutcomes :
    (live true 0 [0x00, 0x01, 0x00, 0x01, 0x00, 0x80, 0x3F, 0xBE]).rx = (frame 0x0001 [0x3F800001]).set 2 0x00 ∧
      (0x00 : Byte).toNat < 1 ∧ (1 < (0x03 : Byte).toNat ∧ (0x03 : Byte).toNat ≤ 10) ∧ 10 < (0x11 : Byte).toNat := by decide

theorem witness_CorruptionUndetectedIffErrorsCancel :
    isWellFormedFrame scenarioA = true ∧
      ([0x00, 0x01, 0x01, 0x00, 0x00, 0x81, 0x3E, 0xBF] : Bytes).length = scenarioA.length ∧
      ([0x00, 0x01, 0x01, 0x00, 0x00, 0x81, 0x3E, 0xBF] : Bytes)[2]? = scenarioA[2]? := by decide

/-- `ReceiveIsDecodeThenUpdateOrDiscard`, `ReceiveWritesLivenessOnSuccessOnly`, `FailedReceiveEmptiesRx`: with and without a
session, on a good frame, a corrupt one and none. -/
theorem witness_receive : (idle []).session = none ∧ (∃ x, (live true 0 []).session = some x) ∧
    completionOf (exec (.opReceive 5) (live true 0 scenarioA)) = some (.ok (.frame 0x0001 [0x3F800000])) ∧
    completionOf (exec (.opReceive 5) (live true 0 [0x00, 0x01, 0x0B])) = some (.err .tooManyValues true) ∧
    completionOf (exec (.opReceive 5) (live true 0 [])) = some (.err .incomplete false) :=
  ⟨rfl, ⟨_, rfl⟩, by decide, by decide, by decide⟩

/-- The statements whose hypotheses are only that a session exists, or that none does (`DiscardResult`, `ReadLsResult`,
`OnFrameDecodedResult`, `IsLiveResult`, `IsLiveOutcomes`, `RearmResult`, `CloseResult`, `SendAndReceiveCommute`,
`RefusalsWithoutSession`). -/
theorem witness_session : (idle []).session = none ∧ (∃ x, (live false 250 []).session = some x ∧ x.link.timeoutFlag = false) ∧
    ∃ x, (live true 0 []).session = some x ∧ x.link.timeoutFlag = true := ⟨rfl, ⟨_, rfl, rfl⟩, _, rfl, rfl⟩

/-- `OpenResult`, `IsLiveOutcomes`: both answers of the Transport. -/
theorem witness_OpenResult : ((idle []).session = none ∧ openAnswer (idle []).env = true) ∧
    openAnswer (drawing (idle []) [false] [] []).env = false := ⟨⟨rfl, rfl⟩, rfl⟩

theorem witness_IsOpenResult : MirrorsTransport (live true 0 []) ∧ MirrorsTransport (idle []) := by
  constructor
  · exact ⟨rfl, fun x h => by cases h; rfl⟩
  · exact ⟨rfl, fun x h => by cases h⟩

theorem witness_NothingSurvivesASession :
    (∃ t, exec .opClose (live false 250 scenarioA) = .next t) ∧ (∃ t, exec .opClose (live true 0 []) = .next t) ∧
      MirrorsTransport (live false 250 scenarioA) ∧
      openAnswer (live false 250 scenarioA).env = openAnswer (live true 0 []).env :=
  ⟨⟨_, rfl⟩, ⟨_, rfl⟩, ⟨rfl, fun x h => by cases h; rfl⟩, rfl⟩

/-- `PollRearmResult` and `PollRearmIsReadThenRearm`: exceeded, equal, below. -/
theorem witness_poll :
    (∃ u l, exec .opReadLs (live false 250 []) = .next u ∧ u.completion = some (.ok (.linkState l)) ∧
      1251 - l.lastLiveAt > 1000 ∧ 1250 - l.lastLiveAt = 1000 ∧ 1249 - l.lastLiveAt ≠ 1000 ∧ l.timeoutFlag = false) :=
  ⟨_, _, rfl, rfl, by decide, by decide, by decide, rfl⟩

theorem witness_RefusalsWithoutSession : 12 ≤ (0xC : Selector).toNat ∧
    { idle [] with inbox := [.request { selector := 0xF }] }.inbox = .request ⟨0xF, {}⟩ :: [] := ⟨by decide, rfl⟩

/-- `StatusAndDiscardByOperation`: an operation that is no frame row and answers a next state. -/
theorem witness_StatusAndDiscardByOperation : ¬ IsFrameRow .opDecode ∧ ∃ t, exec .opDecode (live true 0 []) = .next t :=
  ⟨(by rintro ⟨a, ⟨⟩⟩), _, rfl⟩

theorem witness_FailureKeepsSession :
    ∃ t e d, exec .opDecode (live true 0 []) = .next t ∧ t.completion = some (.err e d) := ⟨_, _, _, rfl, rfl⟩

/-- `OutcomeIndependentOfLastCompletion`, for an operation and for a frame row. -/
theorem witness_OutcomeIndependentOfLastCompletion :
    (∃ t, exec .opRearm (live false 0 []) = .next t) ∧ IsFrameRow (.frameN0 0 [] 0) := ⟨⟨_, rfl⟩, _, rfl⟩

/-- A session with a completion, a call and a pending RECEIVE behind it. -/
def busy : State :=
  { live true 0 scenarioA with
    inbox := [.request { selector := 6 }]
    calls := [.openPort 7 9600]
    completion := some (.ok .nothing) }

/-- `StepKeepsInvariant`: a session with a completion and calls behind it meets the invariant, and steps. -/
theorem witness_StepKeepsInvariant :
    ∃ s t, StateInv s ∧ s.calls ≠ [] ∧ step s = .next t ∧ t ≠ s := by
  refine ⟨busy, _, ⟨⟨rfl, ?_⟩, ?_, ?_⟩, by decide, rfl, by decide⟩
  · intro x h; cases h; rfl
  · intro c h; cases h; trivial
  · intro c h; rw [List.mem_singleton.mp h]; trivial

/-- `LifeOfTheTimeoutFlag`, `SessionConstants`, `WhoTouchesTheStreams`, `TransportCallsByOperation`: each event of the flag's
life happens. -/
theorem witness_LifeOfTheTimeoutFlag :
    (lsOf (exec (.opReceive 7) (live true 0 scenarioA))).map (Option.map LinkState.timeoutFlag) = some (some false) ∧
    (lsOf (exec .opRearm (live false 0 []))).map (Option.map LinkState.timeoutFlag) = some (some true) ∧
    lsOf (exec .opClose (live false 0 [])) = some none := by decide

/-- `FrameRowsArrive`: the answers its rows are compared with exist. -/
theorem witness_FrameRowsArrive : ∃ arrived : Nat → Answer, ∀ n, arrived n =
    .next { idle [] with rx := (idle []).rx ++ [headerHi 1, headerLo 1, BitVec.ofNat 8 n] ++ payloadBytes [0] ++ [0xBF] } :=
  ⟨_, fun _ => rfl⟩

/-- `ArrivedFrameDecodes`. -/
theorem witness_ArrivedFrameDecodes : frameRow 10 = some .frameN10 ∧ (List.replicate 10 (0 : Word)).length = 10 ∧
    (∃ x, (live true 0 []).session = some x) ∧ (live true 0 []).rx = [] ∧ 10 < (0x0B : Byte).toNat :=
  ⟨rfl, by decide, ⟨_, rfl⟩, rfl, by decide⟩

end Sys2Proof.Tests
end

section
/-! SUPPORT. What a step does with the event it takes, and what a request without a session or with a reserved selector
answers (rules R14, R92, R187, R196, R215). -/

namespace Sys2Proof.Machine

/-! ### The step, by what the next event decodes to -/

theorem afterFetch_eq (s : State) (p : Presented) (rest : List Presented) (hi : s.inbox = p :: rest) :
    afterFetch s = { s with inbox := rest } := by simp [afterFetch, hi, State.setInbox]

theorem step_of_decode_ok (s : State) (p : Presented) (rest : List Presented) (i : Instr) (hi : s.inbox = p :: rest)
    (hd : decode p = .ok i) : step s = exec i { s with inbox := rest } := by
  simp [step, hi, hd, afterFetch_eq s p rest hi]

theorem step_of_decode_error (s : State) (p : Presented) (rest : List Presented) (r : Reject)
    (hi : s.inbox = p :: rest) (hd : decode p = .error r) : step s = runUndecoded r { s with inbox := rest } := by
  simp [step, hi, hd, afterFetch_eq s p rest hi]

theorem step_of_request (s : State) (r : Request) (rest : List Presented) (hi : s.inbox = .request r :: rest) :
    step s = exec (decodeRequest r) { s with inbox := rest } := step_of_decode_ok s _ rest _ hi rfl

theorem step_of_overlapping (s : State) (q r : Request) (rest : List Presented)
    (hi : s.inbox = .overlapping q r :: rest) : step s = .refused .overlappingOperations :=
  step_of_decode_error s _ rest .overlappingRequests hi rfl

/-! ### The reserved selectors -/

theorem reservedSelector_cases (sel : Selector) (h : 12 ≤ sel.toNat) :
    sel = 0xC ∨ sel = 0xD ∨ sel = 0xE ∨ sel = 0xF := by bv_omega

theorem exec_decodeRequest_reserved (sel : Selector) (q : Ports) (s : State) (h : 12 ≤ sel.toNat) :
    exec (decodeRequest ⟨sel, q⟩) s = .refused (.reservedSelector sel) := by
  rcases reservedSelector_cases sel h with rfl | rfl | rfl | rfl <;> rfl

/-! ### The operations without a session, and OPEN with one -/

theorem execOpen_of_session (s : State) (x : Session) (p : PortId) (b : BaudRate) (tmo : Millis) (tp now : Int)
    (hs : s.session = some x) : execOpen p b tmo tp now s = .refused .sessionExists := by simp [execOpen, hs]

theorem execSend_of_no_session (s : State) (h : Header) (fv : List Word) (hs : s.session = none)
    (hl : fv.length ≤ 10) : execSend h fv s = .next (s.complete (.err .connectionError false)) := by
  simp [execSend, (tooLong_false_iff fv).2 hl, hs, requestFailure]

theorem execClose_of_no_session (s : State) (hs : s.session = none) :
    execClose s = .next (s.complete (.ok .nothing)) := by simp [execClose, hs]

theorem execIsOpen_of_no_session (s : State) (hs : s.session = none) :
    execIsOpen s = .next (s.complete (.ok (.bool false))) := by simp [execIsOpen, hs]

/-- ENCODE asks for no session (rule R112). -/
theorem execEncode_of_legal_length (s : State) (h : Header) (fv : List Word) (hl : fv.length ≤ 10) :
    execEncode h fv s = .next (s.complete (.ok (.bytes (frame h fv)))) := by
  simp [execEncode, (tooLong_false_iff fv).2 hl]

/-! ### The obligations -/

/-- Settles O8: the step takes the head of the inbox and dispatches what it decodes to. -/
theorem stepRunsDecodedInstruction : Obligations.StepRunsDecodedInstruction := step_of_decode_ok

/-- Settles O39: `withSession` refuses the seven guarded operations; every other clause is one operation's law. -/
theorem refusalsWithoutSession : Obligations.RefusalsWithoutSession := by
  refine ⟨?guarded, ?openTwice, ?reserved, step_of_overlapping, ?meaningful⟩
  case guarded =>
    intro s now tp hs
    have refused (f : Session → Answer) : withSession s f = .refused .noSession := withSession_none s f hs
    exact ⟨refused _, refused _, refused _, refused _, refused _, refused _, refused _⟩
  case openTwice => exact execOpen_of_session
  case reserved =>
    intro s sel q rest hsel hi
    calc step s = exec (decodeRequest ⟨sel, q⟩) { s with inbox := rest } := step_of_request s _ rest hi
      _ = .refused (.reservedSelector sel) := exec_decodeRequest_reserved sel q _ hsel
  case meaningful =>
    intro s h fv hs hl
    exact ⟨execSend_of_no_session s h fv hs hl, execClose_of_no_session s hs, execIsOpen_of_no_session s hs,
      execEncode_of_legal_length s h fv hl⟩

end Sys2Proof.Machine
end

section
/-! SUPPORT. The invariant of the machine: every shared operation keeps it, hence every instruction and every step
(rules R23, R29, R31, R34, R37, R62, R112, R116, R181). -/

namespace Sys2Proof.Machine

/-! ### What ENCODE and SEND produce is a well-formed frame -/

theorem countOf_frame (h : Header) (fv : List Word) (hl : fv.length ≤ 10) : countOf (frame h fv) = fv.length := by
  have count : countOf (frame h fv) = (BitVec.ofNat 8 fv.length).toNat := rfl
  rw [count, BitVec.toNat_ofNat]
  omega

theorem isWellFormedFrame_frame (h : Header) (fv : List Word) (hl : fv.length ≤ 10) :
    isWellFormedFrame (frame h fv) = true := by
  have len : (frame h fv).length = 4 + 4 * fv.length := frame_length h fv
  have last : (frame h fv).length - 1 = (frameBody h fv).length := by rw [len, frameBody_length]; omega
  rw [isWellFormedFrame_iff, countOf_frame h fv hl]
  refine ⟨by omega, hl, len, ?checksum⟩
  case checksum => rw [last]; simp [frame]

/-! ### The shared operations keep the invariant -/

section
variable {s t : State}

theorem StateInv.complete (hI : StateInv s) {c : Completion} (hc : c.Legal) : StateInv (s.complete c) where
  mirror := hI.mirror
  completion := by rintro _ ⟨⟩; exact hc
  calls := hI.calls

theorem StateInv.call (hI : StateInv s) {c : TransportCall} (hc : c.Legal) : StateInv (s.call c) where
  mirror := hI.mirror
  completion := hI.completion
  calls := List.forall_mem_append.2 ⟨hI.calls, List.forall_mem_singleton.2 hc⟩

theorem StateInv.setRx (hI : StateInv s) (bs : Bytes) : StateInv (s.setRx bs) :=
  ⟨hI.mirror, hI.completion, hI.calls⟩

theorem StateInv.setTx (hI : StateInv s) (bs : Bytes) : StateInv (s.setTx bs) :=
  ⟨hI.mirror, hI.completion, hI.calls⟩

theorem StateInv.setEnv (hI : StateInv s) (e : Environment) : StateInv (s.setEnv e) :=
  ⟨hI.mirror, hI.completion, hI.calls⟩

theorem StateInv.setInbox (hI : StateInv s) (l : List Presented) : StateInv (s.setInbox l) :=
  ⟨hI.mirror, hI.completion, hI.calls⟩

/-- A read keeps the invariant when it asks for the first three bytes of a frame or for a legal body (rule R62). -/
theorem StateInv.rxReadState (hI : StateInv s) (n : Nat) (tmo : Millis) (hn : (TransportCall.read n tmo).Legal) :
    StateInv (rxReadState n tmo s) :=
  ((hI.setRx _).setEnv _).call hn

theorem StateInv.txWriteState (hI : StateInv s) (bs : Bytes) (hb : isWellFormedFrame bs = true) :
    StateInv (txWriteState bs s) :=
  ((hI.setTx _).setEnv _).call hb

theorem StateInv.rxDiscard (hI : StateInv s) : StateInv (rxDiscard s) :=
  (hI.setRx []).call trivial

theorem StateInv.askOpen (hI : StateInv s) (p : PortId) (b : BaudRate) : StateInv (askOpen p b s) :=
  (hI.setEnv _).call trivial

theorem StateInv.startSession (hI : StateInv s) {x : Session} (hx : x.link.isOpen = true) :
    StateInv (startSession x s) where
  mirror := ⟨rfl, by rintro _ ⟨⟩; exact hx⟩
  completion := hI.completion
  calls := hI.calls

theorem StateInv.endSession (hI : StateInv s) : StateInv (endSession s) :=
  have ended : StateInv ((s.setTOpen false).setSession none) := ⟨⟨rfl, nofun⟩, hI.completion, hI.calls⟩
  ended.call trivial

/-- Replacing the LinkState of a session by an open one keeps the mirror. -/
theorem StateInv.setLink (hI : StateInv s) {x : Session} (hs : s.session = some x) {l : LinkState}
    (hl : l.isOpen = true) : StateInv (s.setSession (some (x.withLink l))) where
  mirror := by
    obtain ⟨tOpen_eq, -⟩ := hI.mirror
    exact ⟨by simp [tOpen_eq, hs], by rintro _ ⟨⟩; exact hl⟩
  completion := hI.completion
  calls := hI.calls

theorem StateInv.link_isOpen (hI : StateInv s) {x : Session} (hs : s.session = some x) : x.link.isOpen = true :=
  hI.mirror.2 x hs

theorem StateInv.frameDecoded (hI : StateInv s) {x : Session} (hs : s.session = some x) (now : Int) :
    StateInv (frameDecoded x now s) :=
  hI.setLink hs (hI.link_isOpen hs)

theorem StateInv.setTimeoutFlag (hI : StateInv s) {x : Session} (hs : s.session = some x) :
    StateInv (setTimeoutFlag x s) :=
  hI.setLink hs (hI.link_isOpen hs)

/-! ### The decoder and the receive path -/

theorem decodeSteps_legal (tmo : Millis) (s : State) : (decodeSteps tmo s).1.Legal := by
  rcases decodeSteps_completion tmo s with ⟨h, fv, hc, hl⟩ | hc | hc | hc <;> rw [hc]
  · exact hl
  · rfl
  · trivial
  · rfl

theorem StateInv.decodeSteps (hI : StateInv s) (tmo : Millis) : StateInv (decodeSteps tmo s).2 := by
  have hp : StateInv (Machine.rxReadState Config.prefixLength tmo s) := hI.rxReadState _ tmo (.inl rfl)
  rcases decodeSteps_state tmo s with h | ⟨c, hc, h⟩ <;> rw [h]
  · exact hp
  · exact hp.rxReadState _ tmo (.inr ⟨c.toNat, hc, rfl⟩)

theorem StateInv.receiveTail (hI : StateInv s) {x : Session} (hs : s.session = some x) (now : Int) (c : Completion) :
    StateInv (receiveTail x now c s) := by
  match c with
  | .ok _ => exact hI.frameDecoded hs now
  | .err _ true => exact hI.rxDiscard
  | .err _ false => exact hI

/-! ### Every instruction and every step -/

theorem Ran.keeps_stateInv {i : Instr} (h : Ran s i t) (hI : StateInv s) : StateInv t := by
  cases h with
  | arrival => exact hI.setRx _
  | openTaken p b => exact ((hI.askOpen p b).startSession rfl).complete trivial
  | openRefused p b => exact (hI.askOpen p b).complete rfl
  | closeSession => exact hI.endSession.complete trivial
  | closeIdle | isOpen | encodeTooLong | sendTooLong | compares => exact hI.complete trivial
  | encodeFrame h fv hl => exact hI.complete (isWellFormedFrame_frame h fv hl)
  | sendNoSession => exact hI.complete rfl
  | sendWrites h fv x hl =>
    refine (hI.txWriteState _ (isWellFormedFrame_frame h fv hl)).complete ?_
    split
    · trivial
    · rfl
  | decodes x => exact (hI.decodeSteps _).complete (decodeSteps_legal _ s)
  | receives now x hs =>
    have hs' := (decodeSteps_session x.config.readTimeoutMs s).trans hs
    exact ((hI.decodeSteps _).receiveTail hs' now _).complete (decodeSteps_legal _ s)
  | discards => exact hI.rxDiscard.complete trivial
  | marksLive now x hs => exact (hI.frameDecoded hs now).complete trivial
  | rearms x hs | pollRearms _ _ x hs => exact (hI.setTimeoutFlag hs).complete trivial
  | readsLs x hs | pollKeeps _ _ x hs => exact hI.complete (hI.link_isOpen hs)

end

/-- Settles O45: without a session, a completion or a call there is nothing to check. -/
theorem resetMeetsInvariant : Obligations.ResetMeetsInvariant :=
  { mirror := ⟨rfl, nofun⟩, completion := nofun, calls := nofun }

/-- Settles O46: a step does nothing, runs an instruction, or appends an unframed arrival. -/
theorem stepKeepsInvariant : Obligations.StepKeepsInvariant := by
  intro s t hI h
  have fetched : StateInv (afterFetch s) := hI.setInbox _
  rcases step_cases s t h with ⟨-, rfl⟩ | ⟨_, _, i, -, -, hx⟩ | ⟨a, _, -, rfl⟩
  · exact hI
  · exact (exec_ran i _ t hx).keeps_stateInv fetched
  · exact fetched.setRx _

end Sys2Proof.Machine
end

section
/-! SUPPORT. The session: its state at reset, what an instruction can do to it and to the endpoint, and what CLOSE and OPEN
leave (rules R22, R23, R26, R27, R34, R37, R39, R145, R147, R148). -/

namespace Sys2Proof.Machine

/-! ### What an instruction can do to the session and to the endpoint -/

/-- `y` is the session `x` with at most its flag and its time of the last frame written (rules R23, R26, R27). -/
def Session.SameConstants (x y : Session) : Prop :=
  y.link.isOpen = x.link.isOpen ∧ y.link.timeoutPeriod = x.link.timeoutPeriod ∧ y.config = x.config

/-- What a receive path leaves of the session: itself, or the session marked live. -/
theorem receiveTail_session (x : Session) (now : Int) (c : Completion) (s : State) :
    (receiveTail x now c s).session = s.session ∨
      (receiveTail x now c s).session = some (x.withLink (x.link.markLive now)) := by
  match c with
  | .ok _ => exact .inr rfl
  | .err _ true => exact .inl rfl
  | .err _ false => exact .inl rfl

theorem receiveTail_tOpen (x : Session) (now : Int) (c : Completion) (s : State) :
    (receiveTail x now c s).tOpen = s.tOpen := by
  match c with
  | .ok _ => rfl
  | .err _ true => rfl
  | .err _ false => rfl

/-- An instruction starts the session (OPEN), ends it (CLOSE), or leaves the endpoint alone and writes at most the flag and
the time of the session. -/
theorem Ran.session_cases {s t : State} {i : Instr} (h : Ran s i t) :
    (s.session = none ∧ ∃ p b tmo tp now, i = .opOpen p b tmo tp now) ∨
      (t.session = none ∧ i = .opClose) ∨
      (t.tOpen = s.tOpen ∧ (t.session = s.session ∨
        ∃ x y, s.session = some x ∧ t.session = some y ∧ x.SameConstants y)) := by
  cases h with
  | openTaken p b tmo tp now hs => exact .inl ⟨hs, p, b, tmo, tp, now, rfl⟩
  | closeSession => exact .inr (.inl ⟨rfl, rfl⟩)
  | decodes x => exact .inr (.inr ⟨decodeSteps_tOpen _ s, .inl (decodeSteps_session _ s)⟩)
  | receives now x hs =>
    refine .inr (.inr ⟨(receiveTail_tOpen x now _ _).trans (decodeSteps_tOpen _ s), ?_⟩)
    rcases receiveTail_session x now _ _ with kept | marked
    · exact .inl (kept.trans (decodeSteps_session _ s))
    · exact .inr ⟨x, _, hs, marked, rfl, rfl, rfl⟩
  | marksLive _ x hs | rearms x hs | pollRearms _ _ x hs =>
    exact .inr (.inr ⟨rfl, .inr ⟨x, _, hs, rfl, rfl, rfl, rfl⟩⟩)
  | _ => exact .inr (.inr ⟨rfl, .inl rfl⟩)

/-! ### CLOSE, and OPEN after it -/

/-- CLOSE leaves no session and a closed endpoint, and draws nothing (rules R39, R147). -/
theorem exec_opClose_leaves {s t : State} (h : exec .opClose s = .next t) (hm : MirrorsTransport s) :
    t.session = none ∧ t.tOpen = false ∧ t.env = s.env := by
  obtain ⟨tOpen_eq, -⟩ := hm
  cases exec_ran _ s t h with
  | arrival _ _ he => cases he
  | closeIdle hs => exact ⟨hs, by simpa [hs] using tOpen_eq, rfl⟩
  | closeSession => exact ⟨rfl, rfl, rfl⟩

theorem execOpen_of_no_session (p : PortId) (b : BaudRate) (tmo : Millis) (tp now : Int) {s : State}
    (hs : s.session = none) :
    execOpen p b tmo tp now s = .next (if openAnswer s.env then
        (startSession (freshSession p b tmo tp now) (askOpen p b s)).complete (.ok .nothing)
      else (askOpen p b s).complete (requestFailure .connectionError)) := by simp [execOpen, hs]

/-- What OPEN makes of a block without a session depends on the Transport's answer alone (rules R38, R145). -/
theorem exec_opOpen_of_closed (p : PortId) (b : BaudRate) (tmo : Millis) (tp now : Int) {t : State}
    (hs : t.session = none) (ho : t.tOpen = false) :
    ∃ u, exec (.opOpen p b tmo tp now) t = .next u ∧
      u.session = (if openAnswer t.env then some (freshSession p b tmo tp now) else none) ∧
      u.tOpen = openAnswer t.env ∧
      u.completion = some (if openAnswer t.env then .ok .nothing else requestFailure .connectionError) ∧
      (openAnswer t.env = true → u.tx = []) := by
  refine ⟨_, execOpen_of_no_session p b tmo tp now hs, ?_⟩
  cases openAnswer t.env with
  | true => exact ⟨rfl, rfl, rfl, fun _ => rfl⟩
  | false => exact ⟨hs, ho, rfl, nofun⟩

/-! ### The obligations -/

/-- Settles O44: the reset values, and IS_OPEN without a session. -/
theorem resetState : Obligations.ResetState :=
  ⟨rfl, rfl, rfl, rfl, rfl, _, execIsOpen_of_no_session State.reset rfl, rfl⟩

/-- Settles O48: by what an instruction can do to the session. -/
theorem sessionConstants : Obligations.SessionConstants := by
  intro i s t h
  rcases (exec_ran i s t h).session_cases with ⟨none_before, hi⟩ | ⟨none_after, hi⟩ | ⟨endpoint, session⟩
  · exact ⟨fun x y hx _ => by simp [none_before] at hx, fun _ => .inr hi⟩
  · exact ⟨fun x y _ hy => by simp [none_after] at hy, fun _ => .inl hi⟩
  · refine ⟨fun x y hx hy => ?_, fun changed => absurd endpoint changed⟩
    rcases session with kept | ⟨x', y', hx', hy', same⟩
    · obtain rfl : x = y := Option.some.inj (by rw [← hx, ← hy, kept])
      exact ⟨rfl, rfl, rfl⟩
    · obtain rfl : x' = x := Option.some.inj (hx'.symm.trans hx)
      obtain rfl : y' = y := Option.some.inj (hy'.symm.trans hy)
      exact same

/-- Settles O32: CLOSE brings both blocks to a closed endpoint without a session, from where OPEN's effect is a function of
the answer, which CLOSE does not draw. -/
theorem nothingSurvivesASession : Obligations.NothingSurvivesASession := by
  intro p b tmo tp now s s' t t' hc hc' hm hm' same_answer
  obtain ⟨hs, ho, env⟩ := exec_opClose_leaves hc hm
  obtain ⟨hs', ho', env'⟩ := exec_opClose_leaves hc' hm'
  obtain ⟨u, hu, session, endpoint, completion, tx⟩ := exec_opOpen_of_closed p b tmo tp now hs ho
  obtain ⟨u', hu', session', endpoint', completion', tx'⟩ := exec_opOpen_of_closed p b tmo tp now hs' ho'
  rw [env] at session endpoint completion tx
  rw [env', ← same_answer] at session' endpoint' completion' tx'
  exact ⟨u, u', hu, hu', session.trans session'.symm, endpoint.trans endpoint'.symm,
    completion.trans completion'.symm, fun ha => ⟨tx ha, tx' ha⟩⟩

end Sys2Proof.Machine
end

section
/-! SUPPORT. Arrivals: bytes read as a row of the table are that row's encoding, the execution of a frame row is the
arrival of its bytes, and so every arrival does the same to `RX` (rules R51, R53, R80, R82, R84, R85; log entries 1 and 4). -/

namespace Sys2Proof.Machine

/-! ### What the decoder accepts as an arrival -/

/-- The bytes of an arrival that decodes: header and count with the body the count announces, or with an illegal count alone. -/
theorem decodeArrival_ok {a : Bytes} {i : Instr} (hd : decodeArrival a = .ok i) :
    ∃ hi lo c body, a = hi :: lo :: c :: body ∧
      ((∃ row, frameRow c.toNat = some row ∧ body.length = Config.bodyLength c.toNat ∧
          i = row (headerOf hi lo) (payloadWords c.toNat body) (body.getD (4 * c.toNat) 0)) ∨
        (body = [] ∧ i = .frameIllegal (headerOf hi lo) c)) := by
  match a with
  | [] | [_] | [_, _] => cases hd
  | hi :: lo :: c :: body =>
    refine ⟨hi, lo, c, body, rfl, ?_⟩
    simp only [decodeArrival] at hd
    split at hd
    next row hrow =>
      split at hd
      next => cases hd
      next not_short =>
        split at hd
        next => cases hd
        next not_long => cases hd; exact .inl ⟨row, hrow, by omega, rfl⟩
    next =>
      split at hd
      next no_body => cases hd; exact .inr ⟨no_body, rfl⟩
      next => cases hd

theorem decodeArrival_of_decode {a : Bytes} {i : Instr} (hd : decode (.arrival a) = .ok i) :
    decodeArrival a = .ok i := by
  simp only [decode] at hd
  split at hd
  next hda => cases hd; exact hda
  next => cases hd

theorem framePrefix_headerOf (hi lo c : Byte) : framePrefix (headerOf hi lo) c = [hi, lo, c] := by
  rw [framePrefix, headerHi_headerOf, headerLo_headerOf]

/-- A body of the announced length is its lanes' bytes and its checksum byte. -/
theorem payloadBytes_payloadWords_checksum (n : Nat) (body : Bytes) (hl : body.length = Config.bodyLength n) :
    payloadBytes (payloadWords n body) ++ [body.getD (4 * n) 0] = body := by
  have hlen : body.length = 4 * n + 1 := hl
  have hlast : 4 * n < body.length := by omega
  rw [payloadBytes_payloadWords n body hlast.le, List.getD_eq_getElem body 0 hlast, List.take_append_getElem hlast,
    ← hlen, List.take_length]

theorem wireBytes_of_parts (hi lo c : Byte) (body : Bytes) (hl : body.length = Config.bodyLength c.toNat) :
    wireBytes (headerOf hi lo) (BitVec.ofNat 8 c.toNat) (payloadWords c.toNat body) (body.getD (4 * c.toNat) 0) =
      hi :: lo :: c :: body := by
  rw [wireBytes, framePrefix_headerOf, BitVec.ofNat_toNat, BitVec.setWidth_eq, List.append_assoc,
    payloadBytes_payloadWords_checksum c.toNat body hl]
  rfl

/-! ### What executing an arrival does -/

/-- Executing a frame row is the arrival of the bytes it is presented as. -/
theorem exec_of_encode_arrival {i : Instr} {a : Bytes} (he : encode i = .arrival a) (s : State) :
    exec i s = .next (arrive a s) := by
  cases i with
  | frameN0 | frameN1 | frameN2 | frameN3 | frameN4 | frameN5 | frameN6 | frameN7 | frameN8 | frameN9 | frameN10
  | frameIllegal => cases he; rfl
  | _ => cases he

/-- Bytes that are no row of the table are rejected as exactly those bytes. -/
theorem decode_arrival_error {a : Bytes} {r : Reject} (hd : decode (.arrival a) = .error r) :
    ∃ why, r = .notOneFrame why a := by
  simp only [decode] at hd
  split at hd
  next => cases hd
  next why _ => cases hd; exact ⟨why, rfl⟩

theorem arriveFrame_eq (n : Nat) (h : Header) (fv : List Word) (ck : Byte) (s : State) :
    arriveFrame n h fv ck s =
      { s with rx := s.rx ++ [headerHi h, headerLo h, BitVec.ofNat 8 n] ++ payloadBytes fv ++ [ck] } := by
  simp [arriveFrame, arrive_eq, wireBytes, framePrefix]

/-! ### The obligations -/

/-- Settles O2: the two byte orders, the lanes and the checksum byte each come back from their parts. -/
theorem encodeOfDecodedArrivalIsIdentity : Obligations.EncodeOfDecodedArrivalIsIdentity := by
  intro a i hd
  obtain ⟨hi, lo, c, body, rfl, ⟨row, hrow, hl, rfl⟩ | ⟨rfl, rfl⟩⟩ := decodeArrival_ok (decodeArrival_of_decode hd)
  · obtain ⟨-, hrow_bytes, -⟩ := frameRow_spec c.toNat row hrow (headerOf hi lo) (payloadWords c.toNat body)
      (body.getD (4 * c.toNat) 0)
    rw [hrow_bytes, encodeFrame, wireBytes_of_parts hi lo c body hl]
  · rw [encode, framePrefix_headerOf]

/-- Settles O9: bytes that decode run as the row they encode, the others arrive undecoded. -/
theorem stepOnArrivalAppendsToRx : Obligations.StepOnArrivalAppendsToRx := by
  intro s a rest hi
  cases hd : decode (.arrival a) with
  | ok i =>
    rw [step_of_decode_ok s _ rest i hi hd, exec_of_encode_arrival (encodeOfDecodedArrivalIsIdentity a i hd), arrive_eq]
  | error r =>
    obtain ⟨why, rfl⟩ := decode_arrival_error hd
    exact step_of_decode_error s _ rest _ hi hd

/-- Settles O52: a frame row is the arrival of its wire bytes, the illegal row that of its first three bytes. -/
theorem frameRowsArrive : Obligations.FrameRowsArrive := by
  refine ⟨?legal, fun _ _ _ => rfl⟩
  case legal =>
    intro h fv ck s arrived harrived
    have row (n : Nat) : .next (arriveFrame n h fv ck s) = arrived n := by rw [harrived, arriveFrame_eq]
    exact ⟨row 0, row 1, row 2, row 3, row 4, row 5, row 6, row 7, row 8, row 9, row 10⟩

end Sys2Proof.Machine
end

section
/-! SUPPORT. The bytes of `frame` by offset, as numbers (rules R51, R58, R59). -/

namespace Sys2Proof.Machine

/-- An aligned byte of a bit vector is a base-256 digit of its value. -/
theorem toNat_extractLsb'_byte {w : Nat} (x : BitVec w) (j : Nat) :
    (x.extractLsb' (8 * j) 8).toNat = x.toNat / 256 ^ j % 256 := by
  rw [BitVec.extractLsb'_toNat, Nat.shiftRight_eq_div_pow, pow_mul]
  rfl

theorem headerHi_toNat (h : Header) : (headerHi h).toNat = h.toNat / 256 := by
  have digit : (headerHi h).toNat = h.toNat / 256 ^ 1 % 256 := toNat_extractLsb'_byte h 1
  rw [digit]
  omega

theorem headerLo_toNat (h : Header) : (headerLo h).toNat = h.toNat % 256 := by
  have digit : (headerLo h).toNat = h.toNat / 256 ^ 0 % 256 := toNat_extractLsb'_byte h 0
  rw [digit, pow_zero, Nat.div_one]

theorem wordBytes_getElem? (w : Word) (j : Nat) (hj : j < 4) : (wordBytes w)[j]? = some (w.extractLsb' (8 * j) 8) := by
  interval_cases j <;> rfl

/-- Lane `k` stands in the payload at its offset, byte for byte. -/
theorem payloadBytes_getElem? (fv : List Word) (k : Nat) (w : Word) (hw : fv[k]? = some w) (j : Nat) (hj : j < 4) :
    (payloadBytes fv)[4 * k + j]? = (wordBytes w)[j]? := by
  induction fv generalizing k with
  | nil => cases hw
  | cons v vs ih =>
    cases k with
    | zero =>
      obtain rfl : v = w := by simpa using hw
      rw [payloadBytes, Nat.mul_zero, Nat.zero_add, List.getElem?_append_left hj]
    | succ k =>
      have past : 4 * (k + 1) + j = (wordBytes v).length + (4 * k + j) := by rw [wordBytes_length]; omega
      rw [payloadBytes, past, List.getElem?_append_right (Nat.le_add_right _ _), Nat.add_sub_cancel_left]
      exact ih k hw

theorem frame_eq_cons (h : Header) (fv : List Word) :
    frame h fv = headerHi h :: headerLo h :: BitVec.ofNat 8 fv.length ::
      (payloadBytes fv ++ [xorFold (frameBody h fv)]) := rfl

/-- Byte `j` of lane `k` in a frame, as a number. -/
theorem frame_lane_byte (h : Header) (fv : List Word) (k : Nat) (w : Word) (hw : fv[k]? = some w) (j : Nat) (hj : j < 4) :
    ((frame h fv)[3 + (4 * k + j)]?).map BitVec.toNat = some (w.toNat / 256 ^ j % 256) := by
  have in_payload : 4 * k + j < (payloadBytes fv).length := by
    obtain ⟨hk, -⟩ := List.getElem?_eq_some_iff.1 hw
    rw [payloadBytes_length]
    omega
  have behind_prefix : (frame h fv)[3 + (4 * k + j)]? =
      (payloadBytes fv ++ [xorFold (frameBody h fv)])[4 * k + j]? := by
    rw [frame_eq_cons, Nat.add_comm]
    rfl
  rw [behind_prefix, List.getElem?_append_left in_payload, payloadBytes_getElem? fv k w hw j hj,
    wordBytes_getElem? w j hj, Option.map_some, toNat_extractLsb'_byte]

/-- The byte behind the payload is the checksum of everything before it. -/
theorem frame_checksum_byte (h : Header) (fv : List Word) :
    (frame h fv)[3 + 4 * fv.length]? = some (xorFold ((frame h fv).take (3 + 4 * fv.length))) := by
  rw [← frameBody_length h fv, frame, List.take_left, List.getElem?_concat_length]

/-- Settles O4: header and count, the lanes and the checksum byte, each at its offset. -/
theorem frameOffsetMap : Obligations.FrameOffsetMap := by
  intro h fv hl
  refine ⟨frame_length h fv, congrArg some (headerHi_toNat h), congrArg some (headerLo_toNat h), congrArg some ?count,
    ?lanes, frame_checksum_byte h fv⟩
  case count => rw [BitVec.toNat_ofNat]; omega
  case lanes =>
    intro k w hw
    have lane := frame_lane_byte h fv k w hw
    have high : w.toNat / 16777216 % 256 = w.toNat / 16777216 := by omega
    refine ⟨by simpa using lane 0 (by decide), ?_, ?_, ?_⟩
    · rw [show 4 + 4 * k = 3 + (4 * k + 1) by omega]; exact lane 1 (by decide)
    · rw [show 5 + 4 * k = 3 + (4 * k + 2) by omega]; exact lane 2 (by decide)
    · rw [show 6 + 4 * k = 3 + (4 * k + 3) by omega, ← high]; exact lane 3 (by decide)

end Sys2Proof.Machine
end

section
/-! SUPPORT. The streams and the Transport calls: the contracts of the three primitives, and what each instruction may do to
`RX`, `TX` and the record of calls (rules R33, R38, R50, R52, R54, R56, R57, R62, R114, R116, R143, R150). -/

namespace Sys2Proof.Machine

/-! ### The receive path and the streams -/

theorem receiveTail_tx (x : Session) (now : Int) (c : Completion) (s : State) :
    (receiveTail x now c s).tx = s.tx := by
  match c with
  | .ok _ | .err _ true | .err _ false => rfl

theorem receiveTail_inbox (x : Session) (now : Int) (c : Completion) (s : State) :
    (receiveTail x now c s).inbox = s.inbox := by
  match c with
  | .ok _ | .err _ true | .err _ false => rfl

/-- What an instruction may do to the two streams; none writes the inbox. -/
theorem Ran.stream_cases {s t : State} {i : Instr} (h : Ran s i t) :
    (t.rx = s.rx ∨ i = .opDecode ∨ (∃ now, i = .opReceive now) ∨ i = .opDiscard ∨ IsFrameRow i) ∧
      (t.tx = s.tx ∨ (∃ hd fv, i = .opSend hd fv) ∨ (∃ p b tmo tp now, i = .opOpen p b tmo tp now) ∧ t.tx = []) ∧
      t.inbox = s.inbox := by
  cases h with
  | arrival i a he => exact ⟨.inr (.inr (.inr (.inr ⟨a, he⟩))), .inl rfl, rfl⟩
  | openTaken p b tmo tp now => exact ⟨.inl rfl, .inr (.inr ⟨⟨p, b, tmo, tp, now, rfl⟩, rfl⟩), rfl⟩
  | sendWrites hd fv => exact ⟨.inl rfl, .inr (.inl ⟨hd, fv, rfl⟩), rfl⟩
  | decodes => exact ⟨.inr (.inl rfl), .inl (decodeSteps_tx _ s), decodeSteps_inbox _ s⟩
  | receives now x =>
    exact ⟨.inr (.inr (.inl ⟨now, rfl⟩)), .inl ((receiveTail_tx x now _ _).trans (decodeSteps_tx _ s)),
      (receiveTail_inbox x now _ _).trans (decodeSteps_inbox _ s)⟩
  | discards => exact ⟨.inr (.inr (.inr (.inl rfl))), .inl rfl, rfl⟩
  | _ => exact ⟨.inl rfl, .inl rfl, rfl⟩

/-! ### The calls of a decode and of the receive path -/

/-- The reads of one decode with read timeout `tmo`: three bytes, then at most one legal body (rules R62, R150). -/
def DecodeReads (tmo : Millis) (reads : List TransportCall) : Prop :=
  reads = [.read 3 tmo] ∨ ∃ k ≤ 10, reads = [.read 3 tmo, .read (4 * k + 1) tmo]

theorem decodeSteps_calls (tmo : Millis) (s : State) :
    ∃ reads, (decodeSteps tmo s).2.calls = s.calls ++ reads ∧ DecodeReads tmo reads := by
  rcases decodeSteps_state tmo s with h | ⟨c, hc, h⟩ <;> rw [h]
  · exact ⟨_, rfl, .inl rfl⟩
  · exact ⟨_, List.append_assoc _ _ _, .inr ⟨c.toNat, hc, rfl⟩⟩

theorem receiveTail_calls (x : Session) (now : Int) (c : Completion) (s : State) :
    ∃ tail, (receiveTail x now c s).calls = s.calls ++ tail ∧ (tail = [] ∨ tail = [.discardInputBuffer]) := by
  match c with
  | .ok _ | .err _ false => exact ⟨[], (List.append_nil _).symm, .inl rfl⟩
  | .err _ true => exact ⟨_, rfl, .inr rfl⟩

/-! ### The obligations -/

/-- Settles O11: a read takes the first bytes of what was buffered with what arrived. -/
theorem rxReadContract : Obligations.RxReadContract := by
  intro n tmo s _
  refine ⟨rfl, List.length_take, rxRead_conserves n tmo s, rxRead_short n tmo s, ?full, rxReadState_eq n tmo s, ?drawn⟩
  case full => exact fun hn => List.take_append_of_le_length hn
  case drawn =>
    intro a o w r
    have ha : readArrival (s.withAnswers o w (a :: r)).env = a := readArrival_presented _ a r rfl
    rw [rxReadBytes, rxAtRead, ha]
    rfl

/-- Settles O12: the drawn count is cut to the bytes offered, so every count in range is one. -/
theorem txWriteContract : Obligations.TxWriteContract := by
  intro bs s
  refine ⟨txTaken_le bs s, txWriteState_eq bs s, fun w hw o ws r => ?_⟩
  have hcount : writeCount (s.withAnswers o (w :: ws) r).env = w := writeCount_presented _ w ws rfl
  rw [txTaken, hcount, Nat.min_eq_left hw]

/-- Settles O13: the discard writes `RX` and the record of calls, and is over before the next arrival. -/
theorem rxDiscardContract : Obligations.RxDiscardContract := by
  intro s
  refine ⟨rxDiscard_eq s, fun _ => rfl, fun empty => ?_⟩
  rw [rxDiscard_eq, ← empty]

/-- Settles O49: by what an instruction may do to the streams. -/
theorem whoTouchesTheStreams : Obligations.WhoTouchesTheStreams := by
  intro i s t h
  obtain ⟨rx, tx, inbox⟩ := (exec_ran i s t h).stream_cases
  exact ⟨rx.resolve_left, tx.resolve_left, inbox⟩

/-- Settles O50: each way an instruction runs makes its own calls, and only a decode makes more than one. -/
theorem transportCallsByOperation : Obligations.TransportCallsByOperation := by
  intro i s t h
  cases exec_ran i s t h with
  | openTaken p b tmo tp now | openRefused p b tmo tp now =>
    exact ⟨_, rfl, .inr (.inl ⟨p, b, tmo, tp, now, rfl, rfl⟩)⟩
  | closeSession => exact ⟨_, rfl, .inr (.inr (.inl ⟨rfl, rfl⟩))⟩
  | sendWrites hd fv x hl => exact ⟨_, rfl, .inr (.inr (.inr (.inl ⟨hd, fv, rfl, hl, rfl⟩)))⟩
  | discards => exact ⟨_, rfl, .inr (.inr (.inr (.inr (.inl ⟨rfl, rfl⟩))))⟩
  | decodes x hs =>
    obtain ⟨reads, hcalls, hreads⟩ := decodeSteps_calls x.config.readTimeoutMs s
    exact ⟨reads, hcalls, .inr (.inr (.inr (.inr (.inr
      ⟨x, hs, .inl rfl, reads, [], (List.append_nil _).symm, .inl rfl, hreads⟩))))⟩
  | receives now x hs =>
    obtain ⟨reads, hcalls, hreads⟩ := decodeSteps_calls x.config.readTimeoutMs s
    obtain ⟨tail, htail_calls, htail⟩ := receiveTail_calls x now (decodeSteps x.config.readTimeoutMs s).1
      (decodeSteps x.config.readTimeoutMs s).2
    refine ⟨reads ++ tail, ?calls, .inr (.inr (.inr (.inr (.inr
      ⟨x, hs, .inr ⟨now, rfl⟩, reads, tail, rfl, htail.imp_right fun ht => ⟨ht, nofun⟩, hreads⟩))))⟩
    case calls => rw [State.complete_calls, htail_calls, hcalls, List.append_assoc]
  | _ => exact ⟨[], (List.append_nil _).symm, .inl rfl⟩

end Sys2Proof.Machine
end

section
/-! SUPPORT. The independence of the two paths: SEND reads and writes one part of the state, RECEIVE another
(rules R2, R65). -/

namespace Sys2Proof.Machine

/-! ### The two parts of the state -/

/-- The part of the state that RECEIVE depends on and may write, with the endpoint. -/
structure ReceiveSide where
  session      : Option Session
  tOpen        : Bool
  rx           : Bytes
  readArrivals : List Bytes
  reads        : Nat

/-- The part of the state that SEND depends on and may write, with the answers for OPEN. -/
structure SendSide where
  tx          : Bytes
  openAnswers : List Bool
  writeCounts : List Nat
  opens       : Nat
  writes      : Nat

def State.receiveSide (s : State) : ReceiveSide :=
  { session := s.session, tOpen := s.tOpen, rx := s.rx, readArrivals := s.env.readArrivals, reads := s.env.reads }

def State.sendSide (s : State) : SendSide :=
  { tx := s.tx, openAnswers := s.env.openAnswers, writeCounts := s.env.writeCounts, opens := s.env.opens,
    writes := s.env.writes }

theorem State.receiveSide_eq_iff {s s' : State} :
    s.receiveSide = s'.receiveSide ↔ s.session = s'.session ∧ s.tOpen = s'.tOpen ∧ s.rx = s'.rx ∧
      s.env.readArrivals = s'.env.readArrivals ∧ s.env.reads = s'.env.reads := by
  simp [State.receiveSide]

theorem State.sendSide_eq_iff {s s' : State} :
    s.sendSide = s'.sendSide ↔ s.tx = s'.tx ∧ s.env.openAnswers = s'.env.openAnswers ∧
      s.env.writeCounts = s'.env.writeCounts ∧ s.env.opens = s'.env.opens ∧ s.env.writes = s'.env.writes := by
  simp [State.sendSide]

/-- Together the two parts hold the session, the endpoint, the streams and the environment. -/
theorem State.eq_of_sides_eq {s s' : State} (hr : s.receiveSide = s'.receiveSide) (hw : s.sendSide = s'.sendSide) :
    s.session = s'.session ∧ s.tOpen = s'.tOpen ∧ s.rx = s'.rx ∧ s.tx = s'.tx ∧ s.env = s'.env := by
  obtain ⟨session, tOpen, rx, readArrivals, reads⟩ := State.receiveSide_eq_iff.1 hr
  obtain ⟨tx, openAnswers, writeCounts, opens, writes⟩ := State.sendSide_eq_iff.1 hw
  have env : s.env = s'.env := calc
    s.env = ⟨s.env.openAnswers, s.env.writeCounts, s.env.readArrivals, s.env.opens, s.env.writes, s.env.reads⟩ := rfl
    _ = s'.env := by rw [openAnswers, writeCounts, readArrivals, opens, writes, reads]
  exact ⟨session, tOpen, rx, tx, env⟩

/-! ### SEND on its part -/

/-- What SEND completes with when a session exists (rule R114). -/
def sendCompletion (h : Header) (fv : List Word) (s : State) : Completion :=
  if tooLong fv then requestFailure .tooManyValues
  else if txTaken (frame h fv) s = (frame h fv).length then .ok .nothing
  else requestFailure .connectionError

/-- What SEND leaves when a session exists (rule R114). -/
def sendState (h : Header) (fv : List Word) (s : State) : State :=
  (if tooLong fv then s else txWriteState (frame h fv) s).complete (sendCompletion h fv s)

theorem exec_opSend_of_session (h : Header) (fv : List Word) {s : State} {x : Session} (hs : s.session = some x) :
    exec (.opSend h fv) s = .next (sendState h fv s) := by
  cases hl : tooLong fv <;> simp [exec, execSend, sendState, sendCompletion, hl, hs]

theorem sendState_receiveSide (h : Header) (fv : List Word) (s : State) :
    (sendState h fv s).receiveSide = s.receiveSide := by
  unfold sendState
  split <;> rfl

theorem txTaken_congr (bs : Bytes) {s s' : State} (hw : s.sendSide = s'.sendSide) : txTaken bs s = txTaken bs s' := by
  obtain ⟨-, -, writeCounts, -, writes⟩ := State.sendSide_eq_iff.1 hw
  rw [txTaken, txTaken, writeCount, writeCount, writeCounts, writes]

theorem txWriteState_sendSide_congr (bs : Bytes) {s s' : State} (hw : s.sendSide = s'.sendSide) :
    (txWriteState bs s).sendSide = (txWriteState bs s').sendSide := by
  obtain ⟨tx, openAnswers, writeCounts, opens, writes⟩ := State.sendSide_eq_iff.1 hw
  simp [State.sendSide, txWriteState_eq, Environment.afterWrite, txTaken_congr bs hw, *]

theorem sendCompletion_congr (h : Header) (fv : List Word) {s s' : State} (hw : s.sendSide = s'.sendSide) :
    sendCompletion h fv s = sendCompletion h fv s' := by
  rw [sendCompletion, sendCompletion, txTaken_congr _ hw]

theorem sendState_sendSide_congr (h : Header) (fv : List Word) {s s' : State} (hw : s.sendSide = s'.sendSide) :
    (sendState h fv s).sendSide = (sendState h fv s').sendSide := by
  unfold sendState
  split
  · exact hw
  · exact txWriteState_sendSide_congr _ hw

/-! ### RECEIVE on its part -/

/-- What RECEIVE completes with under the session `x` (rule R128). -/
def receiveCompletion (x : Session) (s : State) : Completion := (decodeSteps x.config.readTimeoutMs s).1

/-- What RECEIVE leaves under the session `x` (rule R128). -/
def receiveState (x : Session) (now : Int) (s : State) : State :=
  (receiveTail x now (receiveCompletion x s) (decodeSteps x.config.readTimeoutMs s).2).complete (receiveCompletion x s)

theorem exec_opReceive_of_session (now : Int) {s : State} {x : Session} (hs : s.session = some x) :
    exec (.opReceive now) s = .next (receiveState x now s) :=
  withSession_some s _ x hs

/-- RECEIVE keeps a session where there is one. -/
theorem receiveState_session (x : Session) (now : Int) {s : State} (hs : s.session = some x) :
    ∃ y, (receiveState x now s).session = some y := by
  rcases receiveTail_session x now (receiveCompletion x s) (decodeSteps x.config.readTimeoutMs s).2 with kept | marked
  · exact ⟨x, kept.trans ((decodeSteps_session _ s).trans hs)⟩
  · exact ⟨_, marked⟩

theorem decodeSteps_sendSide (tmo : Millis) (s : State) : (decodeSteps tmo s).2.sendSide = s.sendSide := by
  rcases decodeSteps_state tmo s with h | ⟨c, _, h⟩ <;> rw [h] <;> rfl

theorem receiveTail_sendSide (x : Session) (now : Int) (c : Completion) (s : State) :
    (receiveTail x now c s).sendSide = s.sendSide := by
  match c with
  | .ok _ | .err _ true | .err _ false => rfl

theorem receiveState_sendSide (x : Session) (now : Int) (s : State) : (receiveState x now s).sendSide = s.sendSide :=
  (receiveTail_sendSide x now _ _).trans (decodeSteps_sendSide _ s)

section
variable {s s' : State} (hr : s.receiveSide = s'.receiveSide)
include hr

theorem rxAtRead_congr : rxAtRead s = rxAtRead s' := by
  obtain ⟨-, -, rx, readArrivals, reads⟩ := State.receiveSide_eq_iff.1 hr
  rw [rxAtRead, rxAtRead, readArrival, readArrival, rx, readArrivals, reads]

theorem rxReadBytes_congr (n : Nat) : rxReadBytes n s = rxReadBytes n s' := by
  rw [rxReadBytes, rxReadBytes, rxAtRead_congr hr]

theorem rxReadState_receiveSide_congr (n : Nat) (tmo : Millis) :
    (rxReadState n tmo s).receiveSide = (rxReadState n tmo s').receiveSide := by
  obtain ⟨session, tOpen, -, readArrivals, reads⟩ := State.receiveSide_eq_iff.1 hr
  simp [State.receiveSide, Environment.afterRead, rxAtRead_congr hr, *]

theorem decodeBody_congr (tmo : Millis) (hi lo c : Byte) :
    (decodeBody tmo hi lo c s).1 = (decodeBody tmo hi lo c s').1 ∧
      (decodeBody tmo hi lo c s).2.receiveSide = (decodeBody tmo hi lo c s').2.receiveSide := by
  rw [decodeBody, decodeBody, rxReadBytes_congr hr]
  split <;> exact ⟨rfl, rxReadState_receiveSide_congr hr _ tmo⟩

/-- A decode depends on `RX` and the read draws alone. -/
theorem decodeSteps_congr (tmo : Millis) :
    (decodeSteps tmo s).1 = (decodeSteps tmo s').1 ∧
      (decodeSteps tmo s).2.receiveSide = (decodeSteps tmo s').2.receiveSide := by
  have prefix_read := rxReadState_receiveSide_congr hr Config.prefixLength tmo
  rw [decodeSteps, decodeSteps, rxReadBytes_congr hr]
  split
  · split
    · exact ⟨rfl, prefix_read⟩
    · exact decodeBody_congr prefix_read tmo _ _ _
  · exact ⟨rfl, prefix_read⟩

theorem receiveTail_receiveSide_congr (x : Session) (now : Int) (c : Completion) :
    (receiveTail x now c s).receiveSide = (receiveTail x now c s').receiveSide := by
  obtain ⟨session, tOpen, rx, readArrivals, reads⟩ := State.receiveSide_eq_iff.1 hr
  match c with
  | .ok _ => simp [State.receiveSide, receiveTail_ok, frameDecoded_eq, *]
  | .err _ true => simp [State.receiveSide, receiveTail_discard, rxDiscard_eq, *]
  | .err _ false => exact hr

theorem receiveCompletion_congr (x : Session) : receiveCompletion x s = receiveCompletion x s' :=
  (decodeSteps_congr hr _).1

theorem receiveState_receiveSide_congr (x : Session) (now : Int) :
    (receiveState x now s).receiveSide = (receiveState x now s').receiveSide := by
  rw [receiveState, receiveState, receiveCompletion_congr hr]
  exact receiveTail_receiveSide_congr (decodeSteps_congr hr _).2 x now _

end

/-! ### The obligation -/

/-- Settles O51: each path leaves the other's part of the state, and its own part depends on that part alone. -/
theorem sendAndReceiveCommute : Obligations.SendAndReceiveCommute := by
  intro h fv now s x hs
  have sent_receive : (sendState h fv s).receiveSide = s.receiveSide := sendState_receiveSide h fv s
  have received_send : (receiveState x now s).sendSide = s.sendSide := receiveState_sendSide x now s
  obtain ⟨session, -, rx, -⟩ := State.receiveSide_eq_iff.1 sent_receive
  obtain ⟨tx, -⟩ := State.sendSide_eq_iff.1 received_send
  obtain ⟨y, hs'⟩ := receiveState_session x now hs
  have same_receive : (receiveState x now (sendState h fv s)).receiveSide =
      (sendState h fv (receiveState x now s)).receiveSide :=
    (receiveState_receiveSide_congr sent_receive x now).trans (sendState_receiveSide h fv _).symm
  have same_send : (receiveState x now (sendState h fv s)).sendSide =
      (sendState h fv (receiveState x now s)).sendSide :=
    (receiveState_sendSide x now _).trans (sendState_sendSide_congr h fv received_send).symm
  obtain ⟨same_session, same_tOpen, same_rx, same_tx, same_env⟩ := State.eq_of_sides_eq same_receive same_send
  exact ⟨_, _, _, _, exec_opSend_of_session h fv hs, exec_opReceive_of_session now (session.trans hs),
    exec_opReceive_of_session now hs, exec_opSend_of_session h fv hs',
    same_session, same_tOpen, same_rx, same_tx, same_env,
    congrArg some (sendCompletion_congr h fv received_send).symm, congrArg some (receiveCompletion_congr sent_receive x),
    rx, session, tx⟩

end Sys2Proof.Machine
end

section
/-! SUPPORT. A frame and the pair it is made of: `frame` and `parse`, the checksum fold, the operands as numbers, and the
row the decoder reads (rules R80 to R88, R98; log entries 1 and 4). -/

namespace Sys2Proof.Machine

/-! ### A byte sequence of a legal frame's length, by its parts -/

theorem exists_parts_of_frameLength {F : Bytes} (hl : F.length = 4 + 4 * countOf F) :
    ∃ hi lo c body, F = hi :: lo :: c :: body ∧ body.length = Config.bodyLength c.toNat := by
  match F with
  | [] | [_] | [_, _] => simp at hl; omega
  | hi :: lo :: c :: body =>
    have total : body.length + 3 = 4 + 4 * c.toNat := hl
    exact ⟨hi, lo, c, body, rfl, by rw [Config.bodyLength]; omega⟩

theorem getD_behind_prefix (hi lo c : Byte) (body : Bytes) (n : Nat) :
    (hi :: lo :: c :: body).getD (3 + n) 0 = body.getD n 0 := by
  rw [Nat.add_comm]; rfl

theorem parseFrame_cons (hi lo c : Byte) (body : Bytes) :
    parseFrame (hi :: lo :: c :: body) = (headerOf hi lo, payloadWords c.toNat body) := rfl

theorem payloadWords_length_of_body {n : Nat} {body : Bytes} (hl : body.length = Config.bodyLength n) :
    (payloadWords n body).length = n :=
  payloadWords_length n body (by rw [hl, Config.bodyLength]; omega)

theorem parseFrame_lanes_length {F : Bytes} (hl : F.length = 4 + 4 * countOf F) :
    (parseFrame F).2.length = countOf F := by
  obtain ⟨hi, lo, c, body, rfl, hbody⟩ := exists_parts_of_frameLength hl
  exact payloadWords_length_of_body hbody

/-- Such a sequence is the body of its parsed pair and one more byte, the one in the checksum's place. -/
theorem eq_frameBody_parseFrame_append {F : Bytes} (hl : F.length = 4 + 4 * countOf F) :
    F = frameBody (parseFrame F).1 (parseFrame F).2 ++ [F.getD (3 + 4 * countOf F) 0] := by
  obtain ⟨hi, lo, c, body, rfl, hbody⟩ := exists_parts_of_frameLength hl
  calc hi :: lo :: c :: body
    _ = wireBytes (headerOf hi lo) (BitVec.ofNat 8 c.toNat) (payloadWords c.toNat body) (body.getD (4 * c.toNat) 0) :=
      (wireBytes_of_parts hi lo c body hbody).symm
    _ = frameBody (headerOf hi lo) (payloadWords c.toNat body) ++ [body.getD (4 * c.toNat) 0] := by
      rw [frameBody, payloadWords_length_of_body hbody]; rfl
    _ = _ := by rw [← getD_behind_prefix hi lo c]; rfl

/-! ### Bodies of legal pairs, and the checksum behind them -/

theorem frameBody_append_length (h : Header) (fv : List Word) (ck : Byte) :
    (frameBody h fv ++ [ck]).length = 4 + 4 * fv.length := by
  rw [List.length_append, frameBody_length, List.length_singleton]; omega

theorem countOf_frameBody_append (h : Header) (fv : List Word) (ck : Byte) (hl : fv.length ≤ 10) :
    countOf (frameBody h fv ++ [ck]) = fv.length := countOf_frame h fv hl

/-- Behind the body of a legal pair one byte only makes a well-formed frame: its checksum (rules R86, R88). -/
theorem isWellFormedFrame_frameBody_append (h : Header) (fv : List Word) (ck : Byte) (hl : fv.length ≤ 10) :
    isWellFormedFrame (frameBody h fv ++ [ck]) = true ↔ ck = xorFold (frameBody h fv) := by
  have last : 4 + 4 * fv.length - 1 = (frameBody h fv).length := by rw [frameBody_length]; omega
  rw [isWellFormedFrame_iff, countOf_frameBody_append h fv ck hl, frameBody_append_length, last, List.take_left]
  simp [hl]

theorem xorFold_append_singleton_eq_zero_iff (s : Bytes) (ck : Byte) : xorFold (s ++ [ck]) = 0 ↔ ck = xorFold s := by
  have folded : xorFold (s ++ [ck]) = xorFold s ^^^ ck := by simp [xorFold_append, xorFold]
  rw [folded]
  exact BitVec.xor_eq_zero_iff.trans eq_comm

theorem xorFold_eq_foldl (s : Bytes) : xorFold s = s.foldl (fun x y => x ^^^ y) 0 := by
  induction s using List.reverseRecOn with
  | nil => rfl
  | append_singleton s b ih => simp [xorFold_append, xorFold, ih]

theorem parseFrame_frame (h : Header) (fv : List Word) (hl : fv.length ≤ 10) : parseFrame (frame h fv) = (h, fv) := by
  have count : (BitVec.ofNat 8 fv.length).toNat = fv.length := countOf_frame h fv hl
  rw [frame_eq_cons, parseFrame_cons, headerOf_headerHi_headerLo, count, payloadWords_payloadBytes]

theorem frameLength_of_isWellFormedFrame {F : Bytes} (hF : isWellFormedFrame F = true) :
    countOf F ≤ 10 ∧ F.length = 4 + 4 * countOf F := by
  obtain ⟨-, hc, hl, -⟩ := (isWellFormedFrame_iff F).1 hF
  exact ⟨hc, hl⟩

theorem frame_parseFrame {F : Bytes} (hF : isWellFormedFrame F = true) :
    (parseFrame F).2.length ≤ 10 ∧ frame (parseFrame F).1 (parseFrame F).2 = F := by
  obtain ⟨hc, hl⟩ := frameLength_of_isWellFormedFrame hF
  have legal : (parseFrame F).2.length ≤ 10 := (parseFrame_lanes_length hl).trans_le hc
  have parts := eq_frameBody_parseFrame_append hl
  rw [parts] at hF
  have checksum := (isWellFormedFrame_frameBody_append _ _ _ legal).1 hF
  exact ⟨legal, by rw [frame, ← checksum, ← parts]⟩

/-! ### Well-formedness in the words of rule R88 -/

/-- Rule R88's definition: the count byte, the length it announces, and the last byte the fold of the others. -/
theorem isWellFormedFrame_iff_exists_count (F : Bytes) :
    isWellFormedFrame F = true ↔
      ∃ c : Byte, F[2]? = some c ∧ c.toNat ≤ 10 ∧ F.length = 4 + 4 * c.toNat ∧
        F.getLast? = some (xorFold F.dropLast) := by
  match F with
  | [] | [_] | [_, _] => simp [isWellFormedFrame]
  | hi :: lo :: c :: body =>
    have last : (hi :: lo :: c :: body).getLast? =
        some ((hi :: lo :: c :: body).getD ((hi :: lo :: c :: body).length - 1) 0) := by
      simp [List.getLast?_eq_getElem?]
    have count : countOf (hi :: lo :: c :: body) = c.toNat := rfl
    rw [isWellFormedFrame_iff, last, List.dropLast_eq_take, count]
    constructor
    · rintro ⟨-, hc, hl, checksum⟩
      exact ⟨c, rfl, hc, hl, congrArg some checksum⟩
    · rintro ⟨_, ⟨⟩, hc, hl, checksum⟩
      exact ⟨by omega, hc, hl, Option.some.inj checksum⟩

/-! ### The operands as numbers -/

theorem headerOf_toNat (hi lo : Byte) : (headerOf hi lo).toNat = hi.toNat * 256 + lo.toNat := by
  have high := headerHi_toNat (headerOf hi lo)
  have low := headerLo_toNat (headerOf hi lo)
  rw [headerHi_headerOf] at high
  rw [headerLo_headerOf] at low
  omega

theorem wordOf_toNat (b0 b1 b2 b3 : Byte) :
    (wordOf b0 b1 b2 b3).toNat = b0.toNat + b1.toNat * 256 + b2.toNat * 65536 + b3.toNat * 16777216 := by
  have digit (j : Nat) {b : Byte} (hb : (wordOf b0 b1 b2 b3).extractLsb' (8 * j) 8 = b) :
      (wordOf b0 b1 b2 b3).toNat / 256 ^ j % 256 = b.toNat := by rw [← toNat_extractLsb'_byte, hb]
  have bytes := wordBytes_wordOf b0 b1 b2 b3
  simp only [wordBytes, List.cons.injEq, and_true] at bytes
  obtain ⟨byte0, byte1, byte2, byte3⟩ := bytes
  have digit0 := digit 0 byte0
  have digit1 := digit 1 byte1
  have digit2 := digit 2 byte2
  have digit3 := digit 3 byte3
  omega

/-- Lane `k` of enough bytes is the word of the four bytes at its offset. -/
theorem payloadWords_getElem? (n : Nat) (bs : Bytes) (hl : 4 * n ≤ bs.length) (k : Nat) (hk : k < n) :
    (payloadWords n bs)[k]? =
      some (wordOf (bs.getD (4 * k) 0) (bs.getD (4 * k + 1) 0) (bs.getD (4 * k + 2) 0) (bs.getD (4 * k + 3) 0)) := by
  induction n generalizing bs k with
  | zero => omega
  | succ n ih =>
    match bs with
    | b0 :: b1 :: b2 :: b3 :: rest =>
      cases k with
      | zero => rfl
      | succ k => exact ih rest (by simp at hl; omega) k (by omega)
    | [] | [_] | [_, _] | [_, _, _] => simp at hl <;> omega

/-- Header, legal count and the body it announces decode as the row of that count, whatever the last byte is. -/
theorem decodeArrival_of_body {c : Byte} {row : Header → List Word → Byte → Instr} (hrow : frameRow c.toNat = some row)
    (hi lo : Byte) {body : Bytes} (hl : body.length = Config.bodyLength c.toNat) :
    decodeArrival (hi :: lo :: c :: body) =
      .ok (row (headerOf hi lo) (payloadWords c.toNat body) (body.getD (4 * c.toNat) 0)) := by
  simp [decodeArrival, hrow, hl]

theorem decode_of_decodeArrival {a : Bytes} {i : Instr} (hd : decodeArrival a = .ok i) :
    decode (.arrival a) = .ok i := by simp [decode, hd]

/-! ### The obligations -/

/-- Settles O1: a frame row comes back from its bytes by its law, everything else by the selector table. -/
theorem decodeOfEncodeIsIdentity : Obligations.DecodeOfEncodeIsIdentity := by
  intro i
  cases i with
  | frameN0 h fv ck => exact Laws.RoundTrip.frameN0 h fv ck
  | frameN1 h fv ck => exact Laws.RoundTrip.frameN1 h fv ck
  | frameN2 h fv ck => exact Laws.RoundTrip.frameN2 h fv ck
  | frameN3 h fv ck => exact Laws.RoundTrip.frameN3 h fv ck
  | frameN4 h fv ck => exact Laws.RoundTrip.frameN4 h fv ck
  | frameN5 h fv ck => exact Laws.RoundTrip.frameN5 h fv ck
  | frameN6 h fv ck => exact Laws.RoundTrip.frameN6 h fv ck
  | frameN7 h fv ck => exact Laws.RoundTrip.frameN7 h fv ck
  | frameN8 h fv ck => exact Laws.RoundTrip.frameN8 h fv ck
  | frameN9 h fv ck => exact Laws.RoundTrip.frameN9 h fv ck
  | frameN10 h fv ck => exact Laws.RoundTrip.frameN10 h fv ck
  | frameIllegal h c => exact Laws.RoundTrip.frameIllegal h c
  | _ => exact fun _ => rfl

/-- Settles O7: a well-formed frame is the body of its parsed pair with the right checksum, and `parse` undoes `frame`, so no
other pair gives it. -/
theorem parseAndFrameAreInverse : Obligations.ParseAndFrameAreInverse := by
  refine ⟨isWellFormedFrame_iff_exists_count,
    fun h fv hl => ⟨isWellFormedFrame_frame h fv hl, parseFrame_frame h fv hl⟩, fun F => frame_parseFrame, ?unique⟩
  case unique =>
    intro F hF
    refine ⟨parseFrame F, frame_parseFrame hF, ?_⟩
    rintro ⟨h, fv⟩ ⟨hl, rfl⟩
    exact (parseFrame_frame h fv hl).symm

/-- Settles O5: the parts of the bytes by offset, each of them as a number, and the row of the count. -/
theorem operandsAssembledFromFrameBytes : Obligations.OperandsAssembledFromFrameBytes := by
  intro F _ hc hl
  obtain ⟨hi, lo, c, body, rfl, hbody⟩ := exists_parts_of_frameLength hl
  have enough : 4 * c.toNat ≤ body.length := by rw [hbody, Config.bodyLength]; omega
  obtain ⟨row, hrow⟩ := frameRow_legal c.toNat hc
  refine ⟨rfl, headerOf_toNat hi lo, payloadWords_length _ body enough, ?lanes, row, hrow, ?decoded⟩
  case lanes =>
    intro k hk
    have lane := congrArg (Option.map BitVec.toNat) (payloadWords_getElem? c.toNat body enough k hk)
    rw [Option.map_some, wordOf_toNat] at lane
    rw [Nat.add_comm 3, Nat.add_comm 4, Nat.add_comm 5, Nat.add_comm 6]
    exact lane
  case decoded =>
    have count : countOf (hi :: lo :: c :: body) = c.toNat := rfl
    rw [count, getD_behind_prefix]
    exact decode_of_decodeArrival (decodeArrival_of_body hrow hi lo hbody)

/-- Settles O6: bytes of a legal length are a body and one byte, and fold to zero when that byte is the body's fold. -/
theorem checksumFoldsFrameToZero : Obligations.ChecksumFoldsFrameToZero := by
  refine ⟨xorFold_eq_foldl, fun h fv hl => ⟨?last, xorFold_closed (frameBody h fv)⟩, ?closed⟩
  case last => rw [← frameBody_length h fv, frame, List.take_left, List.getLast?_concat]
  case closed =>
    intro F _ hc hl
    have legal : (parseFrame F).2.length ≤ 10 := (parseFrame_lanes_length hl).trans_le hc
    rw [eq_frameBody_parseFrame_append hl, xorFold_append_singleton_eq_zero_iff]
    exact isWellFormedFrame_frameBody_append _ _ _ legal

end Sys2Proof.Machine
end

section
/-! SUPPORT. DECODE on a frame at the head of `RX`, step by step (rules R120 to R126, R132; log entries 3 and 4). -/

namespace Sys2Proof.Machine

/-! ### The two reads of a decode, by what stands at the head of what they see -/

section
variable {s : State} {hi lo c : Byte}

theorem decodeSteps_of_prefix (tmo : Millis) {more : Bytes} (hr : rxAtRead s = hi :: lo :: c :: more) :
    decodeSteps tmo s =
      if countTooLarge c then (decodeFailure .tooManyValues, rxReadState Config.prefixLength tmo s)
      else decodeBody tmo hi lo c (rxReadState Config.prefixLength tmo s) := by
  have first_read : rxReadBytes Config.prefixLength s = [hi, lo, c] := by rw [rxReadBytes, hr]; rfl
  rw [decodeSteps, first_read]

theorem bodyWanted_eq_length {payload : Bytes} (hp : payload.length = 4 * c.toNat) (ck : Byte) :
    bodyWanted c = (payload ++ [ck]).length := by
  rw [List.length_append, hp]; rfl

/-- With the whole body there, the second read leaves what stands behind it. -/
theorem rxReadState_rx_of_whole_body (tmo : Millis) {payload rest : Bytes} {ck : Byte}
    (hr : rxAtRead s = payload ++ ck :: rest) (hp : payload.length = 4 * c.toNat) :
    (rxReadState (bodyWanted c) tmo s).rx = rest := by
  rw [rxReadState_rx, hr, bodyWanted_eq_length hp ck, List.append_cons payload ck rest, List.drop_left]

/-- With the whole body there, the checksum alone decides (rules R125, R126). -/
theorem decodeBody_of_whole_body (tmo : Millis) {payload rest : Bytes} {ck : Byte}
    (hr : rxAtRead s = payload ++ ck :: rest) (hp : payload.length = 4 * c.toNat) :
    decodeBody tmo hi lo c s =
      (if xorFold ([hi, lo, c] ++ payload) = ck then .ok (.frame (headerOf hi lo) (payloadWords c.toNat payload))
        else decodeFailure .checksumMismatch, rxReadState (bodyWanted c) tmo s) := by
  have wanted : bodyWanted c = (payload ++ [ck]).length := bodyWanted_eq_length hp ck
  have second_read : rxReadBytes (bodyWanted c) s = payload ++ [ck] := by
    rw [rxReadBytes, hr, wanted, List.append_cons payload ck rest, List.take_left]
  have payload_read : payloadPart c (payload ++ [ck]) = payload := by rw [payloadPart, ← hp, List.take_left]
  have checksum_read : checksumPart c (payload ++ [ck]) = ck := by simp [checksumPart, ← hp]
  rw [decodeBody, second_read, if_neg (by rw [wanted]; exact lt_irrefl _), decodeWhole, payload_read, checksum_read]

end

/-! ### A frame's body and any checksum byte at the head of `RX` -/

/-- What a decode answers and leaves when its two reads find the body of a legal pair and a byte behind it. -/
theorem decodeSteps_of_frameBody (tmo : Millis) (s : State) (h : Header) (fv : List Word) (ck : Byte) (rest : Bytes)
    (hl : fv.length ≤ 10) (hrx : s.rx = frameBody h fv ++ ck :: rest) :
    (decodeSteps tmo s).1 =
        (if xorFold (frameBody h fv) = ck then .ok (.frame h fv) else decodeFailure .checksumMismatch) ∧
      (decodeSteps tmo s).2.rx = rest ++ readArrival s.env ++ readArrival s.env.afterRead := by
  have count : (BitVec.ofNat 8 fv.length).toNat = fv.length := countOf_frame h fv hl
  have at_prefix : rxAtRead s = headerHi h :: headerLo h :: BitVec.ofNat 8 fv.length ::
      (payloadBytes fv ++ ck :: (rest ++ readArrival s.env)) := by
    simp [rxAtRead, hrx, frameBody, framePrefix]
  have at_body : rxAtRead (rxReadState Config.prefixLength tmo s) =
      payloadBytes fv ++ ck :: (rest ++ readArrival s.env ++ readArrival s.env.afterRead) := by
    rw [rxAtRead, rxReadState_rx, at_prefix]
    simp [Config.prefixLength]
  have legal : countTooLarge (BitVec.ofNat 8 fv.length) = false := by rw [countTooLarge_false_iff, count]; exact hl
  have lanes : payloadWords fv.length (payloadBytes fv) = fv := by simpa using payloadWords_payloadBytes fv []
  have payload_length : (payloadBytes fv).length = 4 * (BitVec.ofNat 8 fv.length).toNat := by
    rw [payloadBytes_length, count]
  have run := decodeSteps_of_prefix tmo at_prefix
  rw [legal, if_neg Bool.false_ne_true, decodeBody_of_whole_body tmo at_body payload_length, headerOf_headerHi_headerLo,
    count, lanes] at run
  rw [run]
  exact ⟨rfl, rxReadState_rx_of_whole_body tmo at_body payload_length⟩

theorem exec_opDecode_of_session {s : State} {x : Session} (hs : s.session = some x) :
    exec .opDecode s =
      .next ((decodeSteps x.config.readTimeoutMs s).2.complete (decodeSteps x.config.readTimeoutMs s).1) :=
  withSession_some s _ x hs

/-! ### The obligations -/

/-- Settles O19: the frame's own checksum stands behind its body. -/
theorem decodeOfBufferedFrame : Obligations.DecodeOfBufferedFrame := by
  intro s x h fv rest hs hl hrx
  have at_head : s.rx = frameBody h fv ++ xorFold (frameBody h fv) :: rest := by
    rw [hrx, frame, List.append_assoc]; rfl
  obtain ⟨completion, rx⟩ := decodeSteps_of_frameBody x.config.readTimeoutMs s h fv _ rest hl at_head
  rw [if_pos rfl] at completion
  exact ⟨_, exec_opDecode_of_session hs, congrArg some completion, rx, decodeSteps_session _ s, decodeSteps_tx _ s,
    decodeSteps_tOpen _ s⟩

/-- Settles O53: a row's bytes are the body of its pair and its checksum byte; an illegal count ends the decode at
the first read. -/
theorem arrivedFrameDecodes : Obligations.ArrivedFrameDecodes := by
  refine ⟨?legal, ?illegal⟩
  case legal =>
    rintro n row h fv ck s x hrow rfl hs hrx
    obtain ⟨hl, encoded, wf⟩ := frameRow_spec _ row hrow h fv ck
    have well_formed : wellFormed (row h fv ck) = true ↔ xorFold (frameBody h fv) = ck := by
      rw [wf, frameWellFormed_iff]
      exact (and_iff_right rfl).trans eq_comm
    have at_head : (arrive (wireBytes h (BitVec.ofNat 8 fv.length) fv ck) s).rx = frameBody h fv ++ ck :: [] := by
      rw [arrive_eq, hrx]; rfl
    obtain ⟨completion, -⟩ := decodeSteps_of_frameBody x.config.readTimeoutMs _ h fv ck [] hl at_head
    refine ⟨_, _, exec_of_encode_arrival encoded s, exec_opDecode_of_session hs, ?_⟩
    simp only [well_formed]
    exact congrArg some completion
  case illegal =>
    intro h c s x hc hs hrx
    have at_prefix : rxAtRead (arrive (framePrefix h c) s) = headerHi h :: headerLo h :: c :: readArrival s.env := by
      rw [rxAtRead, arrive_eq, hrx]; rfl
    have run := decodeSteps_of_prefix x.config.readTimeoutMs at_prefix
    rw [if_pos ((countTooLarge_iff c).2 hc)] at run
    exact ⟨_, _, rfl, exec_opDecode_of_session hs, by rw [run]; rfl, by rw [run]; rfl⟩

end Sys2Proof.Machine
end

section
/-! SUPPORT. What an operation may complete with, its status and its `discard` bit (rules R13, R31, R94). -/

namespace Sys2Proof.Machine

/-- What an operation may complete with: success, a failure of the decoder, the length guard's, or the Transport's
(rules R13, R94, R111, R114, R121, R145). -/
inductive MayComplete (i : Instr) : Completion → Prop where
  | succeeds (v : Value) : MayComplete i (.ok v)
  | failsDecode (e : Failure) (he : e ≠ .connectionError) (hi : i = .opDecode ∨ ∃ now, i = .opReceive now) :
      MayComplete i (decodeFailure e)
  | tooLong (hi : (∃ h fv, i = .opEncode h fv) ∨ ∃ h fv, i = .opSend h fv) :
      MayComplete i (requestFailure .tooManyValues)
  | transportFails (hi : (∃ p b tmo tp now, i = .opOpen p b tmo tp now) ∨ ∃ h fv, i = .opSend h fv) :
      MayComplete i (requestFailure .connectionError)

theorem decodeSteps_mayComplete {i : Instr} (hi : i = .opDecode ∨ ∃ now, i = .opReceive now) (tmo : Millis) (s : State) :
    MayComplete i (decodeSteps tmo s).1 := by
  rcases decodeSteps_completion tmo s with ⟨h, fv, hc, -⟩ | hc | hc | hc <;> rw [hc]
  · exact .succeeds _
  · exact .failsDecode .incomplete (by decide) hi
  · exact .failsDecode .tooManyValues (by decide) hi
  · exact .failsDecode .checksumMismatch (by decide) hi

/-- Every operation that answers a next state completes, with one of the completions it may have. -/
theorem Ran.mayComplete {s t : State} {i : Instr} (h : Ran s i t) (not_row : ¬ IsFrameRow i) :
    ∃ c, t.completion = some c ∧ MayComplete i c := by
  cases h with
  | arrival i a he => exact absurd ⟨a, he⟩ not_row
  | openRefused p b tmo tp now => exact ⟨_, rfl, .transportFails (.inl ⟨p, b, tmo, tp, now, rfl⟩)⟩
  | encodeTooLong hd fv => exact ⟨_, rfl, .tooLong (.inl ⟨hd, fv, rfl⟩)⟩
  | sendTooLong hd fv => exact ⟨_, rfl, .tooLong (.inr ⟨hd, fv, rfl⟩)⟩
  | sendNoSession hd fv => exact ⟨_, rfl, .transportFails (.inr ⟨hd, fv, rfl⟩)⟩
  | sendWrites hd fv =>
    refine ⟨_, rfl, ?_⟩
    split
    · exact .succeeds _
    · exact .transportFails (.inr ⟨hd, fv, rfl⟩)
  | decodes x => exact ⟨_, rfl, decodeSteps_mayComplete (.inl rfl) _ s⟩
  | receives now x => exact ⟨_, rfl, decodeSteps_mayComplete (.inr ⟨now, rfl⟩) _ s⟩
  | _ => exact ⟨_, rfl, .succeeds _⟩

/-- The status codes of rule R94. -/
theorem Completion.status_iff (c : Completion) :
    (c.status = 0 ↔ ∃ v, c = .ok v) ∧ (c.status = 1 ↔ ∃ d, c = .err .tooManyValues d) ∧
    (c.status = 2 ↔ ∃ d, c = .err .incomplete d) ∧ (c.status = 3 ↔ ∃ d, c = .err .checksumMismatch d) ∧
    (c.status = 4 ↔ ∃ d, c = .err .connectionError d) ∧ c.status ≤ 4 := by
  cases c with
  | ok v => simp [Completion.status]
  | err e d => cases e <;> simp [Completion.status]

/-- Which operation returns which status, and who sets `discard` (rule R94). -/
theorem MayComplete.status_and_discard {i : Instr} {c : Completion} (h : MayComplete i c) :
    (c.status = 1 → (∃ h fv, i = .opEncode h fv) ∨ (∃ h fv, i = .opSend h fv) ∨ i = .opDecode ∨
      ∃ now, i = .opReceive now) ∧
    (c.status = 2 ∨ c.status = 3 → i = .opDecode ∨ ∃ now, i = .opReceive now) ∧
    (c.status = 4 → (∃ p b tmo tp now, i = .opOpen p b tmo tp now) ∨ ∃ h fv, i = .opSend h fv) ∧
    (c.discard = true ↔ (i = .opDecode ∨ ∃ now, i = .opReceive now) ∧ (c.status = 1 ∨ c.status = 3)) := by
  cases h with
  | succeeds v => simp [Completion.status, Completion.discard]
  | failsDecode e he hi =>
    cases e with
    | connectionError => exact absurd rfl he
    | tooManyValues | incomplete | checksumMismatch =>
      simp [decodeFailure, discardDemanded, Completion.status, Completion.discard, hi]
  | tooLong hi =>
    obtain ⟨h, fv, rfl⟩ | ⟨h, fv, rfl⟩ := hi <;> simp [requestFailure, Completion.status, Completion.discard]
  | transportFails hi => simpa [requestFailure, Completion.status, Completion.discard] using hi

/-- Settles O41: the status names the class of the completion, and the operation admits only its own classes. -/
theorem statusAndDiscardByOperation : Obligations.StatusAndDiscardByOperation := by
  intro i s t not_row h
  obtain ⟨c, hc, completes⟩ := (exec_ran i s t h).mayComplete not_row
  obtain ⟨ok, tooMany, incomplete, mismatch, connection, bound⟩ := c.status_iff
  exact ⟨c, hc, ok, tooMany, incomplete, mismatch, connection, bound, completes.status_and_discard⟩

end Sys2Proof.Machine
end

section
/-! SUPPORT. The selector table, the reserved selectors and the caller's poll (rules R91, R92, R97, R169; log entries 1, 4,
7 and 13). -/

namespace Sys2Proof.Machine

/-! ### The poll -/

theorem execPollRearm_of_exceeded {s : State} {x : Session} {now period : Int} (hs : s.session = some x)
    (exceeded : period < now - x.link.lastLiveAt) :
    execPollRearm now period s = .next
      { s with session := some { x with link := { x.link with timeoutFlag := true } },
               completion := some (.ok .nothing) } := by
  rw [execPollRearm, withSession_some s _ x hs, if_pos ((pollExceeded_iff _ _ _).2 exceeded)]
  rfl

theorem execPollRearm_of_not_exceeded {s : State} {x : Session} {now period : Int} (hs : s.session = some x)
    (kept : now - x.link.lastLiveAt ≤ period) :
    execPollRearm now period s = .next { s with completion := some (.ok (.linkState x.link)) } := by
  rw [execPollRearm, withSession_some s _ x hs, (pollExceeded_false_iff _ _ _).2 kept]
  rfl

/-! ### The obligations -/

/-- Settles O3: each selector and each of the three byte sequences, by running the decoder. -/
theorem presentedWordsDecode : Obligations.PresentedWordsDecode :=
  ⟨fun _ => ⟨rfl, rfl, rfl, rfl, rfl, rfl, rfl, rfl, rfl, rfl, rfl, rfl, rfl, rfl, rfl, rfl⟩,
    Tests.test_decode_scenarioA, rfl, rfl⟩

/-- Settles O37: the poll without a session, and on either side of its strict comparison. -/
theorem pollRearmResult : Obligations.PollRearmResult :=
  fun _ _ s => ⟨withSession_none s _, fun _ hs => ⟨execPollRearm_of_exceeded hs, execPollRearm_of_not_exceeded hs⟩⟩

/-- Settles O40: a request with a reserved selector decodes to its reserved row, and that row is refused. -/
theorem reservedSelectorsRefused : Obligations.ReservedSelectorsRefused := by
  refine fun s => ⟨rfl, rfl, rfl, rfl, fun q sel hsel rest t => ?_⟩
  rw [step_of_request _ _ rest rfl, exec_decodeRequest_reserved sel q _ hsel]
  nofun

end Sys2Proof.Machine
end

section
/-! SUPPORT. ENCODE and SEND: the length guard, the frame that is encoded, the one write of the whole frame, and a run
of successful SENDs (rules R111, R112, R114, R116; log entries 3, 7 and 8). -/

namespace Sys2Proof.Machine

/-! ### The length guard, the first test of ENCODE and of SEND -/

theorem execEncode_of_too_long (h : Header) {fv : List Word} (s : State) (hl : 10 < fv.length) :
    execEncode h fv s = .next (s.complete (.err .tooManyValues false)) := by
  rw [execEncode, if_pos ((tooLong_iff fv).2 hl)]; rfl

theorem execSend_of_too_long (h : Header) {fv : List Word} (s : State) (hl : 10 < fv.length) :
    execSend h fv s = .next (s.complete (.err .tooManyValues false)) := by
  rw [execSend, if_pos ((tooLong_iff fv).2 hl)]; rfl

/-! ### The bytes of a successful ENCODE -/

/-- Rule R112 (a) to (c): what the bytes encoded from a legal payload are. -/
theorem frame_guarantees (h : Header) (fv : List Word) (hl : fv.length ≤ 10) :
    isWellFormedFrame (frame h fv) = true ∧ (frame h fv).length = 4 + 4 * fv.length ∧ 4 ≤ (frame h fv).length ∧
      (frame h fv).length ≤ 44 ∧ countOf (frame h fv) = fv.length ∧ countOf (frame h fv) ≤ 10 ∧
      (parseFrame (frame h fv)).2 = fv := by
  have len : (frame h fv).length = 4 + 4 * fv.length := frame_length h fv
  have count : countOf (frame h fv) = fv.length := countOf_frame h fv hl
  exact ⟨isWellFormedFrame_frame h fv hl, len, by omega, by omega, count, by omega,
    congrArg Prod.snd (parseFrame_frame h fv hl)⟩

/-! ### The write of SEND -/

/-- SEND under a session, past its length guard: one write of the whole frame, and success when all of it is taken. -/
theorem execSend_of_session (h : Header) {fv : List Word} {s : State} {x : Session} (hl : fv.length ≤ 10)
    (hs : s.session = some x) :
    execSend h fv s = .next ((txWriteState (frame h fv) s).complete
      (if txTaken (frame h fv) s = (frame h fv).length then .ok .nothing else .err .connectionError false)) := by
  have sent : sendState h fv s = (txWriteState (frame h fv) s).complete
      (if txTaken (frame h fv) s = (frame h fv).length then .ok .nothing else .err .connectionError false) := by
    rw [sendState, sendCompletion, (tooLong_false_iff fv).2 hl]; rfl
  exact sent ▸ exec_opSend_of_session h fv hs

theorem txTaken_frame (h : Header) (fv : List Word) (s : State) :
    txTaken (frame h fv) s = min (writeCount s.env) (4 + 4 * fv.length) :=
  congrArg (min (writeCount s.env)) (frame_length h fv)

/-- A write that is taken whole appends all the bytes offered. -/
theorem txWriteState_of_taken_whole {bs : Bytes} {s : State} (whole : txTaken bs s = bs.length) :
    txWriteState bs s =
      { s with tx := s.tx ++ bs, env := s.env.afterWrite, calls := s.calls ++ [.write bs] } := by
  rw [txWriteState_eq, whole, List.take_length]

/-- A SEND that completes with success has written its whole frame. -/
theorem exec_opSend_success {h : Header} {fv : List Word} {s u : State} (hx : exec (.opSend h fv) s = .next u)
    (hc : u.completion = some (.ok .nothing)) :
    u = { s with tx := s.tx ++ frame h fv, env := s.env.afterWrite, calls := s.calls ++ [.write (frame h fv)],
                 completion := some (.ok .nothing) } := by
  cases exec_ran _ s u hx with
  | arrival _ _ he => cases he
  | sendTooLong | sendNoSession => cases hc
  | sendWrites _ _ x =>
    by_cases whole : txTaken (frame h fv) s = (frame h fv).length
    · rw [if_pos whole, txWriteState_of_taken_whole whole]; rfl
    · rw [if_neg whole] at hc; cases hc

/-! ### The obligations -/

/-- Settles O15: above ten words no bytes are returned, and up to ten the frame is. -/
theorem encodeGuarantees : Obligations.EncodeGuarantees := by
  intro h fv s
  rcases Nat.lt_or_ge 10 fv.length with long | legal
  · exact ⟨_, _, execEncode_of_too_long h s long, rfl, nofun, fun hl => absurd long hl.not_gt, fun _ => rfl,
      rfl, rfl, nofun⟩
  · refine ⟨_, _, execEncode_of_legal_length s h fv legal, rfl, ?bytes, fun _ => ⟨_, rfl⟩,
      fun hl => absurd hl legal.not_gt, rfl, rfl, nofun⟩
    case bytes => rintro _ ⟨⟩; exact frame_guarantees h fv legal

/-- Settles O17: by induction on the run; each SEND appends its frame to `TX` and one write to the calls. -/
theorem sendRunConcatenatesFrames : Obligations.SendRunConcatenatesFrames := by
  intro l
  induction l with
  | nil => rintro s _ rfl; simp
  | cons p more ih =>
    obtain ⟨h, fv⟩ := p
    rintro s t ⟨u, hx, hc, run⟩
    obtain ⟨tx, calls, session, tOpen, rx⟩ := ih u t run
    rw [exec_opSend_success hx hc] at tx calls session tOpen rx
    exact ⟨by simp [tx], by simp [calls], session, tOpen, rx⟩

/-- Settles O14: the length guard decides, and the session is not asked for. -/
theorem encodeResult : Obligations.EncodeResult :=
  fun h fv s => ⟨rfl, execEncode_of_too_long h s, execEncode_of_legal_length s h fv⟩

/-- Settles O16: the length guard, then the session, then the count that the Transport takes of the frame. -/
theorem sendResult : Obligations.SendResult := by
  refine fun h fv s => ⟨rfl, execSend_of_too_long h s, fun hl hs => execSend_of_no_session s h fv hs hl, ?write⟩
  case write =>
    rintro hl x w hs rfl
    have len : (frame h fv).length = 4 + 4 * fv.length := frame_length h fv
    rw [← txTaken_frame h, ← len]
    exact execSend_of_session h hl hs

end Sys2Proof.Machine
end

section
/-! SUPPORT. What a decode consumes, leaves and reports, by the bytes its two reads find (rules R120 to R127; log
entries 3 and 8). -/

namespace Sys2Proof.Machine

/-! ### The state after one read and after both, by what is left in `RX` -/

/-- The state after a decode's first read, with the bytes `left` behind it (rules R54, R122). -/
def State.afterPrefixRead (s : State) (tmo : Millis) (left : Bytes) : State :=
  { s with rx := left, env := s.env.afterRead, calls := s.calls ++ [.read 3 tmo] }

/-- The state after both reads of a decode, `c` the count in the first, with the bytes `left` behind them (rules R54,
R124). -/
def State.afterBothReads (s : State) (tmo : Millis) (c : Byte) (left : Bytes) : State :=
  { s with rx := left, env := s.env.afterRead.afterRead,
           calls := s.calls ++ [.read 3 tmo, .read (4 * c.toNat + 1) tmo] }

theorem rxReadState_prefix (tmo : Millis) (s : State) :
    rxReadState Config.prefixLength tmo s = s.afterPrefixRead tmo ((rxAtRead s).drop 3) := rfl

theorem rxAtRead_afterPrefixRead (s : State) (tmo : Millis) (more : Bytes) :
    rxAtRead (s.afterPrefixRead tmo more) = more ++ readArrival s.env.afterRead := rfl

theorem rxReadState_body (tmo : Millis) (s : State) (more : Bytes) (c : Byte) :
    rxReadState (bodyWanted c) tmo (s.afterPrefixRead tmo more) =
      s.afterBothReads tmo c ((more ++ readArrival s.env.afterRead).drop (4 * c.toNat + 1)) := by
  simp [rxReadState_eq, State.afterPrefixRead, State.afterBothReads, bodyWanted, Config.bodyLength]

/-! ### The four ends of a decode -/

/-- Rule R122: with fewer than three bytes the decode ends at its first read. -/
theorem decodeSteps_of_short_prefix (tmo : Millis) {s : State} (short : (rxAtRead s).length < 3) :
    decodeSteps tmo s = (.err .incomplete false, s.afterPrefixRead tmo []) := by
  have first_read : rxReadBytes Config.prefixLength s = rxAtRead s := List.take_of_length_le short.le
  have left : (rxAtRead s).drop 3 = [] := List.drop_eq_nil_of_le short.le
  rw [decodeSteps, first_read, rxReadState_prefix, left]
  match rxAtRead s, short with
  | [], _ | [_], _ | [_, _], _ => rfl

section
variable (tmo : Millis) {s : State} {hi lo c : Byte} {more : Bytes} (hr : rxAtRead s = hi :: lo :: c :: more)
include hr

/-- Rule R123: with a count above ten it ends there, too. -/
theorem decodeSteps_of_large_count (large : 10 < c.toNat) :
    decodeSteps tmo s = (.err .tooManyValues true, s.afterPrefixRead tmo more) := by
  rw [decodeSteps_of_prefix tmo hr, if_pos ((countTooLarge_iff c).2 large), rxReadState_prefix, hr]; rfl

theorem decodeSteps_of_legal_count (legal : c.toNat ≤ 10) :
    decodeSteps tmo s = decodeBody tmo hi lo c (s.afterPrefixRead tmo more) := by
  rw [decodeSteps_of_prefix tmo hr, (countTooLarge_false_iff c).2 legal, if_neg Bool.false_ne_true, rxReadState_prefix,
    hr]
  rfl

/-- Rule R124: with fewer bytes behind the count than it announces the decode ends at its second read. -/
theorem decodeSteps_of_short_body (legal : c.toNat ≤ 10)
    (short : (more ++ readArrival s.env.afterRead).length < 4 * c.toNat + 1) :
    decodeSteps tmo s = (.err .incomplete false, s.afterBothReads tmo c []) := by
  have second_read : (rxReadBytes (bodyWanted c) (s.afterPrefixRead tmo more)).length < bodyWanted c :=
    (List.length_take_le' _ _).trans_lt short
  have left : (more ++ readArrival s.env.afterRead).drop (4 * c.toNat + 1) = [] := List.drop_eq_nil_of_le short.le
  rw [decodeSteps_of_legal_count tmo hr legal, decodeBody, if_pos second_read, rxReadState_body, left]; rfl

/-- Rules R125, R126: with the announced body there, the checksum decides. -/
theorem decodeSteps_of_whole_body (legal : c.toNat ≤ 10) {payload rest : Bytes} {ck : Byte}
    (hp : payload.length = 4 * c.toNat) (whole : more ++ readArrival s.env.afterRead = payload ++ ck :: rest) :
    decodeSteps tmo s =
      (if xorFold ([hi, lo, c] ++ payload) = ck then .ok (.frame (headerOf hi lo) (payloadWords c.toNat payload))
        else .err .checksumMismatch true, s.afterBothReads tmo c rest) := by
  have left : (payload ++ ck :: rest).drop (4 * c.toNat + 1) = rest := by simp [← hp]
  rw [decodeSteps_of_legal_count tmo hr legal,
    decodeBody_of_whole_body tmo ((rxAtRead_afterPrefixRead s tmo more).trans whole) hp, rxReadState_body, whole, left]
  rfl

end

/-! ### An incomplete decode -/

/-- Bytes enough for a body are its payload, its checksum byte and what stands behind it. -/
theorem exists_body_parts {n : Nat} {bs : Bytes} (enough : n + 1 ≤ bs.length) :
    ∃ payload ck rest, bs = payload ++ ck :: rest ∧ payload.length = n :=
  ⟨bs.take n, bs[n], bs.drop (n + 1), by rw [← List.drop_eq_getElem_cons, List.take_append_drop],
    List.length_take_of_le (Nat.le_of_succ_le enough)⟩

/-- Rule R127: an incomplete decode has read all there was. -/
theorem decodeSteps_rx_of_incomplete {tmo : Millis} {s : State} {d : Bool}
    (hc : (decodeSteps tmo s).1 = .err .incomplete d) : (decodeSteps tmo s).2.rx = [] := by
  match hr : rxAtRead s with
  | [] | [_] | [_, _] => rw [decodeSteps_of_short_prefix tmo (by simp [hr])]; rfl
  | hi :: lo :: c :: more =>
    rcases Nat.lt_or_ge 10 c.toNat with large | legal
    · rw [decodeSteps_of_large_count tmo hr large] at hc; cases hc
    · rcases Nat.lt_or_ge (more ++ readArrival s.env.afterRead).length (4 * c.toNat + 1) with short | enough
      · rw [decodeSteps_of_short_body tmo hr legal short]; rfl
      · obtain ⟨payload, ck, rest, whole, hp⟩ := exists_body_parts enough
        rw [decodeSteps_of_whole_body tmo hr legal hp whole] at hc
        dsimp only at hc
        split at hc <;> cases hc

/-! ### The obligation -/

/-- Settles O18: each clause is one of the four ends of a decode. -/
theorem decodeOutcomes : Obligations.DecodeOutcomes := by
  refine ⟨rfl, fun s => withSession_none s _, fun s x hs => ⟨_, exec_opDecode_of_session hs,
    fun short => ?prefix_short, fun hi lo c more hr => ⟨fun large => ?count_large, fun legal short => ?body_short,
      fun legal payload ck rest hp whole => ?body_whole⟩⟩⟩
  case prefix_short => rw [decodeSteps_of_short_prefix _ short]; rfl
  case count_large => rw [decodeSteps_of_large_count _ hr large]; rfl
  case body_short => rw [decodeSteps_of_short_body _ hr legal short]; rfl
  case body_whole => rw [decodeSteps_of_whole_body _ hr legal hp whole]; rfl

end Sys2Proof.Machine
end

section
/-! SUPPORT. What becomes of a damaged frame: truncated, with bytes changed, with its count changed (rules R86, R132 to
R134, R218; log entry 3). -/

namespace Sys2Proof.Machine

/-! ### The fold of changed bytes -/

/-- The fold of the differences is the difference of the folds. -/
theorem xorFold_zipWith_xor : ∀ {F G : Bytes}, G.length = F.length →
    xorFold (List.zipWith (fun x y => x ^^^ y) F G) = xorFold F ^^^ xorFold G
  | [], [], _ => rfl
  | a :: F, b :: G, hl => by
    have ih := xorFold_zipWith_xor (Nat.succ.inj hl)
    rw [List.zipWith_cons_cons, xorFold, xorFold, xorFold, ih]
    ac_rfl

/-- Writing one byte keeps the fold only if it keeps the byte. -/
theorem xorFold_set_eq_iff (F : Bytes) (j : Nat) (b : Byte) (hj : j < F.length) :
    xorFold (F.set j b) = xorFold F ↔ F[j]? = some b := by
  induction F generalizing j with
  | nil => cases hj
  | cons a F ih =>
    cases j with
    | zero => simp [xorFold, BitVec.xor_left_inj, eq_comm]
    | succ j => simpa [xorFold, BitVec.xor_right_inj] using ih j (Nat.lt_of_succ_lt_succ hj)

theorem countOf_congr {F G : Bytes} (count : G[2]? = F[2]?) : countOf G = countOf F := by
  rw [countOf, countOf, List.getD_eq_getElem?_getD, List.getD_eq_getElem?_getD, count]

/-- Rule R86 for bytes of a legal frame's length. -/
theorem isWellFormedFrame_iff_xorFold_eq_zero {F : Bytes} (hc : countOf F ≤ 10) (hl : F.length = 4 + 4 * countOf F) :
    isWellFormedFrame F = true ↔ xorFold F = 0 := by
  obtain ⟨-, -, closed⟩ := checksumFoldsFrameToZero
  exact closed F (by omega) hc hl

/-! ### A frame with its count byte replaced -/

theorem payloadBytes_take (fv : List Word) (k : Nat) : payloadBytes (fv.take k) = (payloadBytes fv).take (4 * k) := by
  induction fv generalizing k with
  | nil => simp [payloadBytes]
  | cons w fv ih =>
    cases k with
    | zero => rfl
    | succ k => simp [payloadBytes, wordBytes, ih, Nat.mul_succ]

theorem frame_set_count (h : Header) (fv : List Word) (c : Byte) :
    (frame h fv).set 2 c = headerHi h :: headerLo h :: c :: (frame h fv).drop 3 := rfl

/-- With a smaller count it begins with the body of as many lanes. -/
theorem frame_set_smaller_count (h : Header) {fv : List Word} {c : Byte} (hc : c.toNat ≤ fv.length) :
    (frame h fv).set 2 c = frameBody h (fv.take c.toNat) ++ (frame h fv).drop (3 + 4 * c.toNat) := by
  have count : BitVec.ofNat 8 (fv.take c.toNat).length = c := by simp [hc]
  have lanes : payloadBytes (fv.take c.toNat) = ((frame h fv).drop 3).take (4 * c.toNat) := by
    rw [payloadBytes_take, frame_eq_cons]
    simp [List.take_append_of_le_length, hc]
  rw [frame_set_count, frameBody, count, lanes, ← List.drop_drop, List.append_assoc, List.take_append_drop]; rfl

/-! ### What a decode makes of the damaged bytes -/

/-- Bytes of a legal frame's length that do not fold to zero fail their checksum, and are consumed. -/
theorem decodeSteps_of_nonzero_fold (tmo : Millis) {s : State} {G rest : Bytes} (hc : countOf G ≤ 10)
    (hl : G.length = 4 + 4 * countOf G) (fold : xorFold G ≠ 0) (hrx : s.rx = G ++ rest) :
    (decodeSteps tmo s).1 = .err .checksumMismatch true ∧
      (decodeSteps tmo s).2.rx = rest ++ readArrival s.env ++ readArrival s.env.afterRead := by
  have parts := eq_frameBody_parseFrame_append hl
  have legal : (parseFrame G).2.length ≤ 10 := (parseFrame_lanes_length hl).trans_le hc
  rw [parts, Ne, xorFold_append_singleton_eq_zero_iff] at fold
  rw [parts, List.append_assoc] at hrx
  obtain ⟨completion, rx⟩ := decodeSteps_of_frameBody tmo s _ _ _ rest legal hrx
  rw [if_neg (Ne.symm fold)] at completion
  exact ⟨completion, rx⟩

theorem decodeSteps_of_truncated_frame (tmo : Millis) {s : State} {h : Header} {fv : List Word} {k : Nat}
    (hl : fv.length ≤ 10) (hk : k < 4 + 4 * fv.length) (hr : rxAtRead s = (frame h fv).take k)
    (quiet : readArrival s.env.afterRead = []) : (decodeSteps tmo s).1 = .err .incomplete false := by
  match k with
  | 0 | 1 | 2 => rw [decodeSteps_of_short_prefix tmo (by rw [hr]; exact (List.length_take_le _ _).trans_lt (by decide))]
  | k + 3 =>
    have count : (BitVec.ofNat 8 fv.length).toNat = fv.length := countOf_frame h fv hl
    rw [frame_eq_cons] at hr
    have short : (((payloadBytes fv ++ [xorFold (frameBody h fv)]).take k) ++ readArrival s.env.afterRead).length <
        4 * (BitVec.ofNat 8 fv.length).toNat + 1 := by
      rw [quiet, List.append_nil, count]
      exact (List.length_take_le _ _).trans_lt (by omega)
    rw [decodeSteps_of_short_body tmo hr (count.trans_le hl) short]

/-! ### The obligations -/

/-- Settles O20: the first read comes up short, or the second. -/
theorem truncatedFrameIsIncomplete : Obligations.TruncatedFrameIsIncomplete := by
  intro s x h fv k hs hl hk hrx quiet quiet'
  have seen : rxAtRead s = (frame h fv).take k := by rw [rxAtRead, hrx, quiet, List.append_nil]
  have completion := decodeSteps_of_truncated_frame x.config.readTimeoutMs hl hk seen quiet'
  exact ⟨_, exec_opDecode_of_session hs, congrArg some completion, decodeSteps_rx_of_incomplete completion,
    decodeSteps_session _ s, decodeSteps_tx _ s⟩

/-- Settles O21: the count is unchanged, and the one changed byte changes the fold. -/
theorem oneCorruptByteIsDetected : Obligations.OneCorruptByteIsDetected := by
  intro s x h fv j b rest hs hl hj hj2 changed hrx
  have length : (frame h fv).length = 4 + 4 * fv.length := frame_length h fv
  have count : countOf ((frame h fv).set j b) = fv.length :=
    (countOf_congr (List.getElem?_set_ne hj2)).trans (countOf_frame h fv hl)
  have fold : xorFold ((frame h fv).set j b) ≠ 0 := fun zero =>
    changed ((xorFold_set_eq_iff _ j b (length ▸ hj)).1 (zero.trans (xorFold_closed (frameBody h fv)).symm))
  obtain ⟨completion, rx⟩ := decodeSteps_of_nonzero_fold x.config.readTimeoutMs (count ▸ hl)
    (by rw [List.length_set, length, count]) fold hrx
  exact ⟨_, exec_opDecode_of_session hs, congrArg some completion, rx, decodeSteps_session _ s⟩

/-- Settles O22: the three ranges of the count, a smaller one giving the body of as many lanes and a byte behind it. -/
theorem corruptCountByteOutcomes : Obligations.CorruptCountByteOutcomes := by
  intro s x h fv c hs hl hrx quiet quiet'
  have length : (frame h fv).length = 4 + 4 * fv.length := frame_length h fv
  have seen : rxAtRead s = headerHi h :: headerLo h :: c :: (frame h fv).drop 3 := by
    rw [rxAtRead, hrx, quiet, List.append_nil, frame_set_count]
  refine ⟨_, exec_opDecode_of_session hs, fun large => ?too_many, fun larger legal => ?incomplete,
    fun fewer => ?shorter⟩
  case too_many => rw [decodeSteps_of_large_count _ seen large]; exact ⟨rfl, rfl⟩
  case incomplete =>
    have short : ((frame h fv).drop 3 ++ readArrival s.env.afterRead).length < 4 * c.toNat + 1 := by
      rw [quiet', List.append_nil, List.length_drop]; omega
    rw [decodeSteps_of_short_body _ seen legal short]; exact ⟨rfl, rfl⟩
  case shorter =>
    have inside : 3 + 4 * c.toNat < (frame h fv).length := by omega
    have few : (fv.take c.toNat).length ≤ 10 := (List.length_take_le' _ _).trans hl
    have body_length : (frameBody h (fv.take c.toNat)).length = 3 + 4 * c.toNat := by simp [fewer.le]
    have body : ((frame h fv).set 2 c).take (3 + 4 * c.toNat) = frameBody h (fv.take c.toNat) := by
      rw [frame_set_smaller_count h fewer.le, ← body_length, List.take_left]
    rw [frame_set_smaller_count h fewer.le, List.drop_eq_getElem_cons inside] at hrx
    obtain ⟨completion, rx⟩ := decodeSteps_of_frameBody x.config.readTimeoutMs s _ _ _ _ few hrx
    rw [quiet, quiet', List.append_nil, List.append_nil] at rx
    have checksum : (frame h fv)[3 + 4 * c.toNat]? = some (xorFold (((frame h fv).set 2 c).take (3 + 4 * c.toNat))) ↔
        xorFold (frameBody h (fv.take c.toNat)) = (frame h fv)[3 + 4 * c.toNat] := by
      rw [body, List.getElem?_eq_getElem inside, Option.some_inj, eq_comm]
    refine ⟨?rest, congrArg some (completion.trans (if_congr checksum.symm rfl rfl))⟩
    rw [State.complete_rx, rx, show 4 + 4 * c.toNat = 3 + 4 * c.toNat + 1 by omega]

/-- Settles O23: `F` folds to zero, so the differences fold to what `G` folds to. -/
theorem corruptionUndetectedIffErrorsCancel : Obligations.CorruptionUndetectedIffErrorsCancel := by
  intro F G hF same_length same_count
  obtain ⟨hc, hl⟩ := frameLength_of_isWellFormedFrame hF
  have fold : xorFold F = 0 := (isWellFormedFrame_iff_xorFold_eq_zero hc hl).1 hF
  have count : countOf G = countOf F := countOf_congr same_count
  have folded : xorFold (List.zipWith (fun x y => x ^^^ y) F G) = xorFold G := by
    simp [xorFold_zipWith_xor same_length, fold]
  rw [folded]
  exact isWellFormedFrame_iff_xorFold_eq_zero (count ▸ hc) (by rw [same_length, count, hl])

end Sys2Proof.Machine
end

section
/-! SUPPORT. RECEIVE as a decode with one of three tails, and what a failure of any operation leaves (rules R120,
R128 to R131, R143, R182, R184, R188, R189; log entries 1, 3, 7 and 8). -/

namespace Sys2Proof.Machine

/-! ### The receive path after a failed decode -/

theorem receiveTail_err_session (x : Session) (now : Int) (e : Failure) (d : Bool) (s : State) :
    (receiveTail x now (.err e d) s).session = s.session := by
  cases d <;> rfl

/-- The discard empties `RX`, and an incomplete decode has left it empty. -/
theorem receiveTail_decodeSteps_rx_of_err (x : Session) (now : Int) {tmo : Millis} {s : State} {e : Failure} {d : Bool}
    (hc : (decodeSteps tmo s).1 = .err e d) :
    (receiveTail x now (.err e d) (decodeSteps tmo s).2).rx = [] := by
  cases d with
  | true => rfl
  | false =>
    rcases decodeSteps_completion tmo s with ⟨h, fv, ok, -⟩ | incomplete | tooMany | mismatch
    · rw [ok] at hc; cases hc
    · exact decodeSteps_rx_of_incomplete incomplete
    · rw [tooMany] at hc; cases hc
    · rw [mismatch] at hc; cases hc

theorem receiveTail_calls_getLast?_of_discard (x : Session) (now : Int) {c : Completion} (s : State)
    (hd : c.discard = true) : (receiveTail x now c s).calls.getLast? = some .discardInputBuffer := by
  match c, hd with
  | .err _ true, _ => exact List.getLast?_concat

/-- The configuration outlives every RECEIVE. -/
theorem receiveState_cfg (x : Session) (now : Int) {s : State} (hs : s.session = some x) :
    (receiveState x now s).cfg = s.cfg := by
  have decoded : (decodeSteps x.config.readTimeoutMs s).2.session = some x := (decodeSteps_session _ s).trans hs
  rcases receiveTail_session x now (receiveCompletion x s) (decodeSteps x.config.readTimeoutMs s).2 with kept | marked
  · rw [receiveState, State.cfg_eq, State.complete_session, kept, decoded, State.cfg_eq, hs]
  · rw [receiveState, State.cfg_eq, State.complete_session, marked, State.cfg_eq, hs]; rfl

/-! ### Any failure -/

/-- An instruction that completes with a failure has written neither the session nor the endpoint. -/
theorem Ran.keeps_session_of_err {s t : State} {i : Instr} (h : Ran s i t) {e : Failure} {d : Bool}
    (hc : t.completion = some (.err e d)) : t.session = s.session ∧ t.tOpen = s.tOpen := by
  cases h with
  | openTaken | closeSession | marksLive | rearms | pollRearms => cases hc
  | decodes x => exact ⟨decodeSteps_session _ s, decodeSteps_tOpen _ s⟩
  | receives now x =>
    have failed : (decodeSteps x.config.readTimeoutMs s).1 = .err e d := Option.some.inj hc
    rw [failed]
    exact ⟨(receiveTail_err_session x now e d _).trans (decodeSteps_session _ s),
      (receiveTail_tOpen x now _ _).trans (decodeSteps_tOpen _ s)⟩
  | _ => exact ⟨rfl, rfl⟩

/-! ### The obligations -/

/-- Settles O24: the three tails of the receive path are the two operations and nothing. -/
theorem receiveIsDecodeThenUpdateOrDiscard : Obligations.ReceiveIsDecodeThenUpdateOrDiscard := by
  refine fun now s => ⟨rfl, withSession_none s _, fun x hs => ⟨_, _, exec_opDecode_of_session hs, rfl, ?tail⟩⟩
  case tail =>
    have decoded (c : Completion) : ((decodeSteps x.config.readTimeoutMs s).2.complete c).session = some x :=
      (decodeSteps_session _ s).trans hs
    rw [exec_opReceive_of_session now hs, receiveState, receiveCompletion]
    rcases decodeSteps_completion x.config.readTimeoutMs s with ⟨h, fv, hc, -⟩ | hc | hc | hc <;> rw [hc]
    · exact .inl ⟨h, fv, rfl, _, withSession_some _ _ x (decoded _), rfl⟩
    · exact .inr (.inr ⟨rfl, rfl⟩)
    · exact .inr (.inl ⟨.inl rfl, _, withSession_some _ _ x (decoded _), rfl⟩)
    · exact .inr (.inl ⟨.inr rfl, _, withSession_some _ _ x (decoded _), rfl⟩)

/-- Settles O25: only the tail of a successful decode writes the session. -/
theorem receiveWritesLivenessOnSuccessOnly : Obligations.ReceiveWritesLivenessOnSuccessOnly := by
  intro now s x hs
  refine ⟨_, _, exec_opReceive_of_session now hs, rfl, fun e d failed => ?kept, fun v decoded => ?marked⟩
  case kept =>
    rw [receiveState, failed]
    exact (receiveTail_err_session x now e d _).trans (decodeSteps_session _ s)
  case marked => rw [receiveState, decoded]; rfl

/-- Settles O26: `RX` by the discard or the short read, the rest by the frames of the decode and of its tail. -/
theorem failedReceiveEmptiesRx : Obligations.FailedReceiveEmptiesRx := by
  intro now s x hs
  obtain ⟨tx, openAnswers, writeCounts, -⟩ := State.sendSide_eq_iff.1 (receiveState_sendSide x now s)
  refine ⟨_, _, exec_opReceive_of_session now hs, rfl, fun e d failed => ?emptied,
    receiveTail_calls_getLast?_of_discard x now _, tx, (receiveTail_tOpen x now _ _).trans (decodeSteps_tOpen _ s),
    receiveState_cfg x now hs, (receiveTail_inbox x now _ _).trans (decodeSteps_inbox _ s), openAnswers, writeCounts⟩
  case emptied =>
    rw [receiveState, failed]
    exact receiveTail_decodeSteps_rx_of_err x now failed

/-- Settles O42: by what an instruction that completes with a failure can have done. -/
theorem failureKeepsSession : Obligations.FailureKeepsSession :=
  fun i s t _ _ h hc => (exec_ran i s t h).keeps_session_of_err hc

/-- Settles O27: the guard of the session, then the discard. -/
theorem discardResult : Obligations.DiscardResult :=
  ⟨rfl, fun s => ⟨withSession_none s _, fun x hs => withSession_some s _ x hs⟩⟩

end Sys2Proof.Machine
end

section
/-! SUPPORT. OPEN, CLOSE, IS_OPEN and READ_LS, each outcome as its next state, and when a link is not live (rules R28, R38,
R39, R145 to R147, R149, R151, R163 to R165; log entries 1, 3, 7 and 8). -/

namespace Sys2Proof.Machine

/-! ### OPEN -/

section
variable {s : State} (p : PortId) (b : BaudRate) (tmo : Millis) (tp now : Int)

theorem execOpen_of_taken (hs : s.session = none) (taken : openAnswer s.env = true) :
    execOpen p b tmo tp now s = .next
      ((startSession (freshSession p b tmo tp now) (askOpen p b s)).complete (.ok .nothing)) := by
  rw [execOpen_of_no_session p b tmo tp now hs, if_pos taken]

theorem execOpen_of_not_taken (hs : s.session = none) (not_taken : openAnswer s.env = false) :
    execOpen p b tmo tp now s = .next ((askOpen p b s).complete (requestFailure .connectionError)) := by
  rw [execOpen_of_no_session p b tmo tp now hs, if_neg (Bool.eq_false_iff.1 not_taken)]

end

/-! ### CLOSE and IS_OPEN -/

theorem execClose_of_session {s : State} {x : Session} (hs : s.session = some x) :
    execClose s = .next ((endSession s).complete (.ok .nothing)) := by simp [execClose, hs]

/-- CLOSE always answers, and no session is left (rules R39, R147). -/
theorem exec_opClose_ends_session (s : State) : ∃ t, exec .opClose s = .next t ∧ t.session = none := by
  cases hs : s.session with
  | none => exact ⟨_, execClose_of_no_session s hs, hs⟩
  | some x => exact ⟨_, execClose_of_session hs, rfl⟩

theorem execIsOpen_of_session {s : State} {x : Session} (hs : s.session = some x) :
    execIsOpen s = .next (s.complete (.ok (.bool x.link.isOpen))) := by simp [execIsOpen, hs]

/-- Where the mirror holds, `isOpen` says whether a session exists (rules R23, R149). -/
theorem exec_opIsOpen_of_mirrors {s : State} (mirrors : MirrorsTransport s) :
    exec .opIsOpen s = .next (s.complete (.ok (.bool s.session.isSome))) := by
  obtain ⟨-, link_open⟩ := mirrors
  cases hs : s.session with
  | none => exact execIsOpen_of_no_session s hs
  | some x => exact (execIsOpen_of_session hs).trans (by rw [link_open x hs]; rfl)

/-! ### IS_LIVE -/

theorem exec_opIsLive_of_session (now period : Int) {s : State} {x : Session} (hs : s.session = some x) :
    exec (.opIsLive now period) s = .next (s.complete (.ok (.bool (linkIsLive x.link now period)))) :=
  withSession_some s _ x hs

/-- A link is not live when its flag is set, or at or past the period (rule R165). -/
theorem linkIsLive_false_iff (l : LinkState) (now period : Int) :
    linkIsLive l now period = false ↔ l.timeoutFlag = true ∨ period ≤ now - l.lastLiveAt := by
  rw [← Bool.not_eq_true, linkIsLive_iff, not_and_or, Bool.not_eq_false, Int.not_lt]

/-- The link is not live straight after OPEN, which sets the flag (rules R146, R165). -/
theorem linkIsLive_freshSession (p : PortId) (b : BaudRate) (tmo : Millis) (tp start now period : Int) :
    linkIsLive (freshSession p b tmo tp start).link now period = false :=
  (linkIsLive_false_iff _ _ _).2 (.inl rfl)

/-! ### The obligations -/

/-- Settles O28: OPEN with a session, and without one under either answer of the Transport. -/
theorem openResult : Obligations.OpenResult :=
  fun p b tmo tp now s => ⟨rfl, fun x hs => execOpen_of_session s x p b tmo tp now hs,
    execOpen_of_taken p b tmo tp now, execOpen_of_not_taken p b tmo tp now⟩

/-- Settles O29: CLOSE leaves no session, so what follows it is what a block without a session does. -/
theorem closeResult : Obligations.CloseResult := by
  refine ⟨rfl, fun s => ⟨execClose_of_no_session s, fun x hs => execClose_of_session hs, ?after⟩⟩
  case after =>
    obtain ⟨guarded, -⟩ := refusalsWithoutSession
    obtain ⟨t, closes, ended⟩ := exec_opClose_ends_session s
    exact ⟨t, closes, fun now tp => guarded t now tp ended, ⟨_, execIsOpen_of_no_session t ended, rfl⟩,
      fun p b tmo tp now taken => ⟨_, _, execOpen_of_taken p b tmo tp now ended taken, rfl, rfl⟩⟩

/-- Settles O30: the invariant of the mirror gives the answer. -/
theorem isOpenResult : Obligations.IsOpenResult :=
  ⟨rfl, fun _ mirrors => exec_opIsOpen_of_mirrors mirrors⟩

/-- Settles O31: the guard of the session, then its LinkState. -/
theorem readLsResult : Obligations.ReadLsResult :=
  ⟨rfl, fun s => ⟨withSession_none s _, fun x hs => withSession_some s _ x hs⟩⟩

/-- Settles O35: the comparator on either side of the flag and of the period; a fresh session is not live. -/
theorem isLiveOutcomes : Obligations.IsLiveOutcomes := by
  refine ⟨fun now tp s x hs => ⟨_, exec_opIsLive_of_session now tp hs, ?outcomes⟩, ?afterOpen⟩
  case outcomes =>
    have live (clear : x.link.timeoutFlag = false) (below : now - x.link.lastLiveAt < tp) :
        linkIsLive x.link now tp = true := (linkIsLive_iff _ _ _).2 ⟨clear, below⟩
    have flagged (is_set : x.link.timeoutFlag = true) : linkIsLive x.link now tp = false :=
      (linkIsLive_false_iff _ _ _).2 (.inl is_set)
    have elapsed (reached : tp ≤ now - x.link.lastLiveAt) : linkIsLive x.link now tp = false :=
      (linkIsLive_false_iff _ _ _).2 (.inr reached)
    simp only [State.complete_completion, Option.some.injEq, Completion.ok.injEq, Value.bool.injEq]
    exact ⟨flagged, fun clear => ⟨live clear, fun equal => elapsed equal.ge, fun above => elapsed above.le⟩⟩
  case afterOpen =>
    intro p b tmo tp start s hs taken
    refine ⟨_, execOpen_of_taken p b tmo tp start hs taken, fun now period =>
      ⟨_, exec_opIsLive_of_session now period rfl, ?not_live⟩⟩
    rw [State.complete_completion, linkIsLive_freshSession]

end Sys2Proof.Machine
end

section
/-! SUPPORT. The three liveness requests on a session, and the poll as the two requests it issues (rules R161, R163, R164,
R167, R169; log entry 7). -/

namespace Sys2Proof.Machine

/-! ### ON_FRAME_DECODED and REARM on a session -/

theorem exec_opOnFrameDecoded_of_session (now : Int) {s : State} {x : Session} (hs : s.session = some x) :
    exec (.opOnFrameDecoded now) s = .next ((frameDecoded x now s).complete (.ok .nothing)) :=
  withSession_some s _ x hs

theorem exec_opRearm_of_session {s : State} {x : Session} (hs : s.session = some x) :
    exec .opRearm s = .next ((setTimeoutFlag x s).complete (.ok .nothing)) :=
  withSession_some s _ x hs

/-- REARM writes nothing where the flag is already set (rule R167). -/
theorem setTimeoutFlag_of_flag_set {s : State} {x : Session} (hs : s.session = some x)
    (is_set : x.link.timeoutFlag = true) : setTimeoutFlag x s = s := by
  have rearmed : x.link.rearm = x.link := by rw [LinkState.rearm, ← is_set]
  have same : x.withLink x.link = x := rfl
  rw [setTimeoutFlag_eq, rearmed, same, ← hs]

/-! ### The poll, by its two requests -/

/-- READ_LS answers the session's LinkState and writes only the completion (rule R151). -/
theorem exec_opReadLs_answers {s u : State} {l : LinkState} (reads : exec .opReadLs s = .next u)
    (answers : u.completion = some (.ok (.linkState l))) :
    ∃ x, s.session = some x ∧ x.link = l ∧ u = s.complete (.ok (.linkState l)) := by
  obtain ⟨x, hs, hu⟩ := withSession_next s _ u reads
  cases hu
  cases answers
  exact ⟨x, hs, rfl, rfl⟩

/-- The poll's second request finds the session that its first one read (rule R169). -/
theorem exec_pollRearm_eq_readLs_then_rearm (now period : Int) {s : State} {x : Session} (hs : s.session = some x) :
    exec (.pollRearm now period) s =
      if now - x.link.lastLiveAt > period then exec .opRearm (s.complete (.ok (.linkState x.link)))
      else .next (s.complete (.ok (.linkState x.link))) := by
  split
  case isTrue exceeded =>
    have rearms := exec_opRearm_of_session (s := s.complete (.ok (.linkState x.link))) hs
    exact (execPollRearm_of_exceeded hs exceeded).trans rearms.symm
  case isFalse kept => exact execPollRearm_of_not_exceeded hs (Int.not_lt.1 kept)

/-! ### The obligations -/

/-- Settles O38: the poll by its two requests; the two strict comparisons both fail at equality, and elsewhere exactly one
of them holds. -/
theorem pollRearmIsReadThenRearm : Obligations.PollRearmIsReadThenRearm := by
  intro now period s u l reads answers
  obtain ⟨x, hs, rfl, rfl⟩ := exec_opReadLs_answers reads answers
  refine ⟨exec_pollRearm_eq_readLs_then_rearm now period hs, _, _, exec_opIsLive_of_session now period hs, rfl,
    fun equal => ⟨?not_live, ?kept⟩, fun differ clear => ?agree⟩
  case not_live => exact (linkIsLive_false_iff _ _ _).2 (.inr equal.ge)
  case kept => exact execPollRearm_of_not_exceeded hs equal.le
  case agree =>
    calc linkIsLive x.link now period = false
      _ ↔ x.link.timeoutFlag = true ∨ period ≤ now - x.link.lastLiveAt := linkIsLive_false_iff _ _ _
      _ ↔ period ≤ now - x.link.lastLiveAt := by simp [clear]
      _ ↔ now - x.link.lastLiveAt > period := (Ne.symm differ).le_iff_lt

/-- Settles O33: the guard of the session, then the session marked live. -/
theorem onFrameDecodedResult : Obligations.OnFrameDecodedResult :=
  fun now s => ⟨rfl, withSession_none s _, fun _ hs => exec_opOnFrameDecoded_of_session now hs⟩

/-- Settles O34: the guard of the session, then the comparator. -/
theorem isLiveResult : Obligations.IsLiveResult :=
  fun now tp s => ⟨rfl, withSession_none s _,
    fun x hs => ⟨_, exec_opIsLive_of_session now tp hs, linkIsLive_iff x.link now tp⟩⟩

/-- Settles O36: the guard of the session, then the flag; a link with its flag set is not live. -/
theorem rearmResult : Obligations.RearmResult := by
  refine ⟨rfl, fun s => ⟨withSession_none s _, fun x hs => exec_opRearm_of_session hs, fun x hs is_set => ?unchanged,
    fun t rearms now period => ?not_live⟩⟩
  case unchanged => rw [exec_opRearm_of_session hs, setTimeoutFlag_of_flag_set hs is_set, State.complete]
  case not_live =>
    obtain ⟨x, hs, ht⟩ := withSession_next s _ t rearms
    cases ht
    refine ⟨_, exec_opIsLive_of_session (x := x.withLink x.link.rearm) now period rfl, ?_⟩
    rw [State.complete_completion, (linkIsLive_false_iff _ _ _).2 (.inl rfl)]

end Sys2Proof.Machine
end

section
/-! SUPPORT. The life of the session's flag and time: every instruction is one of five events (rules R146, R147, R161, R167,
R170). -/

namespace Sys2Proof.Machine

/-! ### The recording and the re-arming instructions -/

/-- Only ON_FRAME_DECODED and RECEIVE record a frame (rules R161, R170). -/
theorem RecordsFrame.instr {i : Instr} {now : Int} {t : State} (h : RecordsFrame i now t) :
    i = .opOnFrameDecoded now ∨ i = .opReceive now := h.imp_right And.left

theorem not_recordsFrame {i : Instr} {t : State} (not_mark : ∀ now, i ≠ .opOnFrameDecoded now)
    (not_receive : ∀ now, i ≠ .opReceive now) (now : Int) : ¬ RecordsFrame i now t :=
  fun h => h.instr.elim (not_mark now) (not_receive now)

/-- A recorded frame has one time. -/
theorem RecordsFrame.now_unique {i : Instr} {now now' : Int} {t : State} (h : RecordsFrame i now t)
    (h' : RecordsFrame i now' t) : now' = now := by
  rcases h.instr with rfl | rfl <;> rcases h'.instr with same | same <;> cases same <;> rfl

theorem RecordsFrame.ne_opClose {i : Instr} {now : Int} {t : State} (h : RecordsFrame i now t) : i ≠ .opClose := by
  rcases h.instr with rfl | rfl <;> nofun

theorem Rearms.ne_opClose {i : Instr} (h : Rearms i) : i ≠ .opClose := by
  rcases h with rfl | ⟨now, period, rfl⟩ <;> nofun

/-- No instruction both re-arms and records a frame. -/
theorem Rearms.not_recordsFrame {i : Instr} (h : Rearms i) (now : Int) (t : State) : ¬ RecordsFrame i now t := by
  intro record
  rcases record.instr with rfl | rfl <;> rcases h with rearm | ⟨_, _, poll⟩
  all_goals contradiction

/-! ### The five events -/

/-- What an instruction that leads from `s` to `t` is to the session (rule R170). -/
inductive SessionEvent (s : State) (i : Instr) (t : State) : Prop where
  | starts (p : PortId) (b : BaudRate) (tmo : Millis) (tp now : Int) (before : s.session = none)
      (hi : i = .opOpen p b tmo tp now) (after : t.session = some (freshSession p b tmo tp now))
  | ends (hi : i = .opClose) (after : t.session = none)
  | records (x : Session) (now : Int) (before : s.session = some x) (hi : RecordsFrame i now t)
      (after : t.session = some (x.withLink (x.link.markLive now)))
  | rearms (x : Session) (before : s.session = some x) (hi : Rearms i)
      (after : t.session = some (x.withLink x.link.rearm))
  | keeps (not_close : i ≠ .opClose) (not_rearm : i ≠ .opRearm) (not_record : ∀ now, ¬ RecordsFrame i now t)
      (after : t.session = s.session)

/-- A RECEIVE records the frame that its decode answers, and otherwise leaves the session alone (rules R128, R130). -/
theorem receiveState_sessionEvent (now : Int) {s : State} {x : Session} (hs : s.session = some x) :
    SessionEvent s (.opReceive now) (receiveState x now s) := by
  cases hc : receiveCompletion x s with
  | ok v =>
    rcases decodeSteps_completion x.config.readTimeoutMs s with ⟨h, fv, frame, -⟩ | failed | failed | failed
    · refine .records x now hs (.inr ⟨rfl, h, fv, congrArg some frame⟩) ?_
      rw [receiveState, hc]
      rfl
    all_goals rw [receiveCompletion, failed] at hc; cases hc
  | err e d =>
    refine .keeps nofun nofun ?not_record ?kept
    case not_record =>
      rintro now' (mark | ⟨-, h, fv, frame⟩)
      · cases mark
      · have frame : receiveCompletion x s = .ok (.frame h fv) := Option.some.inj frame
        rw [hc] at frame
        cases frame
    case kept =>
      rw [receiveState, hc]
      exact (receiveTail_err_session x now e d _).trans (decodeSteps_session _ s)

/-- Every instruction that answers a next state is one of the five events. -/
theorem Ran.sessionEvent {s t : State} {i : Instr} (h : Ran s i t) : SessionEvent s i t := by
  cases h with
  | arrival i a he =>
    have ne (j : Instr) (hj : encode j ≠ .arrival a) : i ≠ j := fun hij => hj (hij ▸ he)
    exact .keeps (ne _ nofun) (ne _ nofun) (not_recordsFrame (fun _ => ne _ nofun) (fun _ => ne _ nofun)) rfl
  | openTaken p b tmo tp now hs => exact .starts p b tmo tp now hs rfl rfl
  | closeIdle hs => exact .ends rfl hs
  | closeSession => exact .ends rfl rfl
  | decodes => exact .keeps nofun nofun (not_recordsFrame (fun _ => nofun) (fun _ => nofun)) (decodeSteps_session _ s)
  | receives now x hs => exact receiveState_sessionEvent now hs
  | marksLive now x hs => exact .records x now hs (.inl rfl) rfl
  | rearms x hs => exact .rearms x hs (.inl rfl) rfl
  | pollRearms now period x hs => exact .rearms x hs (.inr ⟨now, period, rfl⟩) rfl
  | _ => exact .keeps nofun nofun (not_recordsFrame (fun _ => nofun) (fun _ => nofun)) rfl

/-! ### The obligations -/

/-- Settles O47: each of the five events does to the flag and to the time what the rule says of it. -/
theorem lifeOfTheTimeoutFlag : Obligations.LifeOfTheTimeoutFlag := by
  intro i s t h
  cases (exec_ran i s t h).sessionEvent with
  | starts p b tmo tp now before hi after =>
    rw [before, after]
    refine ⟨?_, nofun, nofun⟩
    rintro _ - ⟨⟩
    exact ⟨p, b, tmo, tp, now, hi, rfl, rfl⟩
  | ends hi after =>
    rw [after]
    exact ⟨nofun, fun _ _ => ⟨fun _ => hi, fun _ => rfl⟩, nofun⟩
  | records x now before hi after =>
    rw [before, after]
    refine ⟨nofun, fun _ _ => ⟨nofun, fun close => absurd close hi.ne_opClose⟩, ?_⟩
    rintro _ _ ⟨⟩ ⟨⟩
    exact ⟨fun now' hi' => ⟨rfl, (hi.now_unique hi').symm⟩, fun _ _ => ⟨now, hi⟩, nofun, fun _ => ⟨now, hi⟩,
      fun rearm => absurd hi (Rearms.not_recordsFrame (.inl rearm) now t)⟩
  | rearms x before hi after =>
    rw [before, after]
    refine ⟨nofun, fun _ _ => ⟨nofun, fun close => absurd close hi.ne_opClose⟩, ?_⟩
    rintro _ _ ⟨⟩ ⟨⟩
    exact ⟨fun now record => absurd record (hi.not_recordsFrame now t), nofun, fun _ _ => hi,
      fun changed => absurd rfl changed, fun _ => rfl⟩
  | keeps not_close not_rearm not_record after =>
    rw [after]
    refine ⟨fun y none_before hy => ?started, fun x hx => ?ended, fun x y hx hy => ?within⟩
    case started => rw [none_before] at hy; cases hy
    case ended => exact ⟨fun none_before => (by rw [none_before] at hx; cases hx), fun close => absurd close not_close⟩
    case within =>
      obtain rfl : x = y := Option.some.inj (hx.symm.trans hy)
      exact ⟨fun now record => absurd record (not_record now), fun is_set clear => (by simp [is_set] at clear),
        fun clear is_set => (by simp [clear] at is_set), fun changed => absurd rfl changed,
        fun rearm => absurd rearm not_rearm⟩

end Sys2Proof.Machine
end

section
/-! SUPPORT. The completion of the last operation is written and never read, and a step without an event or with an overlap
(rules R188, R190, R196, R210, R215, R223; log entries 1 and 7). -/

namespace Sys2Proof.Machine

/-! ### The state with another last completion -/

/-- The state `s` after a last operation that completed with `c`, whatever it completed with in `s` (log entry 7). -/
def State.withCompletion (s : State) (c : Option Completion) : State := { s with completion := c }

theorem State.withCompletion_complete (s : State) (c : Option Completion) (d : Completion) :
    (s.withCompletion c).complete d = s.complete d := rfl

theorem arrive_withCompletion (a : Bytes) (s : State) (c : Option Completion) :
    arrive a (s.withCompletion c) = (arrive a s).withCompletion c := rfl

theorem withSession_withCompletion (s : State) (f : Session → Answer) (c : Option Completion) :
    withSession (s.withCompletion c) f = withSession s f := rfl

theorem decodeBody_withCompletion (tmo : Millis) (hi lo ck : Byte) (s : State) (c : Option Completion) :
    decodeBody tmo hi lo ck (s.withCompletion c) =
      ((decodeBody tmo hi lo ck s).1, (decodeBody tmo hi lo ck s).2.withCompletion c) := by
  have same_bytes : rxReadBytes (bodyWanted ck) (s.withCompletion c) = rxReadBytes (bodyWanted ck) s := rfl
  rw [decodeBody, decodeBody, same_bytes]
  split <;> rfl

/-- A decode hands the last completion on as it found it. -/
theorem decodeSteps_withCompletion (tmo : Millis) (s : State) (c : Option Completion) :
    decodeSteps tmo (s.withCompletion c) = ((decodeSteps tmo s).1, (decodeSteps tmo s).2.withCompletion c) := by
  have same_bytes : rxReadBytes Config.prefixLength (s.withCompletion c) = rxReadBytes Config.prefixLength s := rfl
  rw [decodeSteps, decodeSteps, same_bytes]
  split
  · split
    · rfl
    · exact decodeBody_withCompletion tmo _ _ _ (rxReadState Config.prefixLength tmo s) c
  · rfl

theorem receiveTail_withCompletion (x : Session) (now : Int) (d : Completion) (s : State) (c : Option Completion) :
    receiveTail x now d (s.withCompletion c) = (receiveTail x now d s).withCompletion c := by
  match d with
  | .ok _ | .err _ true | .err _ false => rfl

theorem execDecode_withCompletion (s : State) (c : Option Completion) :
    execDecode (s.withCompletion c) = execDecode s := by
  simp only [execDecode, withSession_withCompletion, decodeSteps_withCompletion,
    State.withCompletion_complete]

theorem execReceive_withCompletion (now : Int) (s : State) (c : Option Completion) :
    execReceive now (s.withCompletion c) = execReceive now s := by
  simp only [execReceive, withSession_withCompletion, decodeSteps_withCompletion, receiveTail_withCompletion,
    State.withCompletion_complete]

/-- An operation ends in `State.complete`, which overwrites the last completion, or is refused: either way its answer is the
same, next state or refusal. -/
theorem exec_withCompletion_of_operation {i : Instr} (not_row : ¬ IsFrameRow i) (s : State) (c : Option Completion) :
    exec i (s.withCompletion c) = exec i s := by
  cases i with
  | opDecode => exact execDecode_withCompletion s c
  | opReceive now => exact execReceive_withCompletion now s c
  | frameN0 | frameN1 | frameN2 | frameN3 | frameN4 | frameN5 | frameN6 | frameN7 | frameN8 | frameN9 | frameN10
  | frameIllegal => exact absurd ⟨_, rfl⟩ not_row
  | _ => rfl

/-! ### A step with no event to come -/

theorem step_of_empty_inbox (s : State) (hi : s.inbox = []) : step s = .next s := by simp [step, hi]

/-! ### The obligations -/

/-- Settles O43: a frame row's arrival keeps the completion it finds, an operation overwrites it. -/
theorem outcomeIndependentOfLastCompletion : Obligations.OutcomeIndependentOfLastCompletion := by
  intro i s t c h
  by_cases row : IsFrameRow i
  case pos =>
    obtain ⟨a, encoded⟩ := row
    obtain rfl : arrive a s = t := Host.Outcome.next.inj ((exec_of_encode_arrival encoded s).symm.trans h)
    have ran : exec i (s.withCompletion c) = .next ((arrive a s).withCompletion c) := by
      rw [exec_of_encode_arrival encoded, arrive_withCompletion]
    exact ⟨_, ran, rfl, fun not_row => absurd ⟨a, encoded⟩ not_row, fun _ => rfl⟩
  case neg =>
    exact ⟨t, (exec_withCompletion_of_operation row s c).trans h, rfl, fun _ => rfl, fun is_row => absurd is_row row⟩

/-- Settles O10: without an event the state stays, and an overlap decodes to the rejection that is refused. -/
theorem stepWithoutEventOrWithOverlap : Obligations.StepWithoutEventOrWithOverlap :=
  ⟨step_of_empty_inbox, step_of_overlapping⟩

end Sys2Proof.Machine
end
